-- ==== Sys2Proof/Word.lean ====
section
/-! DEFINITION. The word types of the block: the bus byte, the bus word BW (30_encoding.md R80), the
decode key DK (R81), the 16-bit output sample (45_device_pipeline.md R244), and the index types of
its six channels and its two noise and envelope generators (00_scope.md R7). -/

namespace Sys2Proof

/-- One bus byte (20_memory.md R63). -/
abbrev Byte := BitVec 8

/-- A bus word BW: bit 8 is A0, bits 7:0 the byte D (30_encoding.md R80). -/
abbrev BusWord := BitVec 9

/-- A decode key DK: bits 13:9 the latch, bit 8 A0, bits 7:0 the byte D (30_encoding.md R81). -/
abbrev Key := BitVec 14

/-- One signed 16-bit output sample (45_device_pipeline.md R244). -/
abbrev Sample := BitVec 16

/-- A channel number, 0..5: an oscillator or an amplifier (00_scope.md R7). -/
abbrev Chan := Fin 6

/-- A generator number, 0 for A and 1 for B: a noise or an envelope generator (00_scope.md R7). -/
abbrev Gen := Fin 2

end Sys2Proof
end

