-- ==== Sys2Proof/Machine/Banks.lean ====
section
/-! DEFINITION. A bank of six like parts and a bank of two (00_scope.md R7), with read, write and map. -/

namespace Sys2Proof.Machine

/-- Six like parts, one per channel. -/
structure Six (α : Type) where
  c0 : α
  c1 : α
  c2 : α
  c3 : α
  c4 : α
  c5 : α
  deriving DecidableEq, Repr

/-- Two like parts, A and B. -/
structure Two (α : Type) where
  a : α
  b : α
  deriving DecidableEq, Repr

/-- The part of channel `i`. -/
def Six.get {α : Type} (v : Six α) (i : Chan) : α :=
  match i with
  | 0 => v.c0
  | 1 => v.c1
  | 2 => v.c2
  | 3 => v.c3
  | 4 => v.c4
  | 5 => v.c5

/-- The bank with the part of channel `i` replaced. -/
def Six.set {α : Type} (v : Six α) (i : Chan) (x : α) : Six α :=
  match i with
  | 0 => { v with c0 := x }
  | 1 => { v with c1 := x }
  | 2 => { v with c2 := x }
  | 3 => { v with c3 := x }
  | 4 => { v with c4 := x }
  | 5 => { v with c5 := x }

/-- The bank built part by part. -/
def Six.ofFn {α : Type} (f : Chan → α) : Six α := ⟨f 0, f 1, f 2, f 3, f 4, f 5⟩

/-- A function applied to every part. -/
def Six.map {α : Type} (f : α → α) (v : Six α) : Six α :=
  ⟨f v.c0, f v.c1, f v.c2, f v.c3, f v.c4, f v.c5⟩

/-- The part of generator `j`. -/
def Two.get {α : Type} (v : Two α) (j : Gen) : α :=
  match j with
  | 0 => v.a
  | 1 => v.b

/-- The bank with the part of generator `j` replaced. -/
def Two.set {α : Type} (v : Two α) (j : Gen) (x : α) : Two α :=
  match j with
  | 0 => { v with a := x }
  | 1 => { v with b := x }

/-- A function applied to both parts. -/
def Two.map {α : Type} (f : α → α) (v : Two α) : Two α := ⟨f v.a, f v.b⟩

end Sys2Proof.Machine
end

