-- ==== Sys2Proof/Config.lean ====
section
/-! DEFINITION. What the spec leaves to an implementation, as plain data: the parameters of 00_scope.md
R6 that no operation writes (`Params`, 10_state.md R30) and the three values a host configuration
operation changes (`Cfg`). The spec leaves no value free (93_implementation_defined.md), so this file
holds no opaque constant. The defaults stand in Machine/Tables.lean. -/

namespace Sys2Proof

/-- The period-increment table FREQ_ROM (00_scope.md R6): the formula of 41_frequency_generator.md
R100, or a table of 2048 entries, entry `256 * octave + offset`. An entry past the list's end is 0
(DESIGN CHOICE, log 4). -/
inductive FreqRom where
  /-- The formula of R100, a function of CLOCK_HZ. -/
  | formula
  /-- A fixed table of entries below 2^32. -/
  | table (entries : List (BitVec 32))
  deriving DecidableEq, Repr

/-- The noise-rate increments NOISE_ADD (00_scope.md R6): the formula of 42_noise_generator.md R140, or
one increment for each of the modes 0, 1 and 2. -/
inductive NoiseRates where
  /-- The formula of R140, a function of CLOCK_HZ. -/
  | formula
  /-- Fixed increments below 2^32 for the modes 0, 1 and 2. -/
  | table (add0 add1 add2 : BitVec 32)
  deriving DecidableEq, Repr

/-- One contour of ENV_ROM (43_envelope_generator.md R160): one or two phases, a loop flag, and for
each resolution the levels `[phase][position]`. A level past a list's end is 0 (DESIGN CHOICE, log 4). -/
structure EnvEntry where
  /-- The contour has two phases; otherwise it has one. -/
  twoPhases : Bool
  /-- The looping flag. -/
  loop : Bool
  /-- The levels in 4-bit resolution. -/
  lvl4 : List (List (BitVec 4))
  /-- The levels in 3-bit resolution. -/
  lvl3 : List (List (BitVec 4))
  deriving DecidableEq, Repr

/-- ENV_ROM: the eight contours (00_scope.md R6, R7). -/
structure EnvRom where
  w0 : EnvEntry
  w1 : EnvEntry
  w2 : EnvEntry
  w3 : EnvEntry
  w4 : EnvEntry
  w5 : EnvEntry
  w6 : EnvEntry
  w7 : EnvEntry
  deriving DecidableEq, Repr

/-- The envelope amplitude map ENV_AMP (00_scope.md R6): the simple product of 44_amplifier_mixer.md
R205, or a table of 512 amplitudes, entry `256 * resolution + 16 * volume + level`. An entry past the
list's end is 0 (DESIGN CHOICE, log 4). -/
inductive AmpMap where
  /-- The simple-product map. -/
  | simpleProduct
  /-- A table of amplitudes 0..15. -/
  | table (entries : List (BitVec 4))
  deriving DecidableEq, Repr

/-- The fixed parameters of 00_scope.md R6. No operation writes them (10_state.md R30), so none could refuse a
GAIN, HPF_A or HPF_B above 2^16: such a value is used as it stands (DESIGN CHOICE, log 18). -/
structure Params where
  /-- FREQ_ROM. -/
  freqRom : FreqRom
  /-- NOISE_ADD. -/
  noiseAdd : NoiseRates
  /-- NOISE_SEED, the power-on value of both noise registers. -/
  noiseSeed : BitVec 32
  /-- ENV_ROM. -/
  envRom : EnvRom
  /-- ENV_AMP. -/
  envAmp : AmpMap
  /-- GAIN. -/
  gain : Nat
  /-- HPF_ENABLE. -/
  hpfEnable : Bool
  /-- HPF_A, in units of 2^-16. -/
  hpfA : Nat
  /-- HPF_B, in units of 2^-16. -/
  hpfB : Nat
  deriving DecidableEq, Repr

/-- `dev.cfg` (10_state.md R30): the values SET_CLOCK, SET_RATE and SET_OVERSAMPLE change. -/
structure Cfg where
  /-- CLOCK_HZ. -/
  clockHz : Nat
  /-- SAMPLE_HZ. -/
  sampleHz : Nat
  /-- OVERSAMPLE, the exponent n of the 2^n sub-ticks in a frame. -/
  oversample : Nat
  deriving DecidableEq, Repr

end Sys2Proof
end

