-- ==== Sys2Proof/Machine/Tables.lean ====
section
/-! DEFINITION. The default parameters of 00_scope.md R6, the table reads of R9, the threshold
(10_state.md R31) and the legal ranges of the configuration and of the parameters. -/

namespace Sys2Proof.Machine

/-! ### The default contour ROM (43_envelope_generator.md R160) -/

/-- Contour ZERO. -/
def contourZero : List (BitVec 4) := [0, 0, 0, 0, 0, 0, 0, 0, 0, 0, 0, 0, 0, 0, 0, 0]

/-- Contour MAX. -/
def contourMax : List (BitVec 4) := [15, 15, 15, 15, 15, 15, 15, 15, 15, 15, 15, 15, 15, 15, 15, 15]

/-- Contour DECAY. -/
def contourDecay : List (BitVec 4) := [15, 14, 13, 12, 11, 10, 9, 8, 7, 6, 5, 4, 3, 2, 1, 0]

/-- Contour ATTACK. -/
def contourAttack : List (BitVec 4) := [0, 1, 2, 3, 4, 5, 6, 7, 8, 9, 10, 11, 12, 13, 14, 15]

/-- A contour's 3-bit levels: the 4-bit ones with bit 0 cleared (R160). -/
def to3Bit (c : List (BitVec 4)) : List (BitVec 4) := c.map (fun l => l &&& 0xE)

/-- A ROM entry of one phase. -/
def onePhase (loop : Bool) (c : List (BitVec 4)) : EnvEntry :=
  { twoPhases := false, loop := loop, lvl4 := [c], lvl3 := [to3Bit c] }

/-- A ROM entry of two phases. -/
def twoPhase (loop : Bool) (c d : List (BitVec 4)) : EnvEntry :=
  { twoPhases := true, loop := loop, lvl4 := [c, d], lvl3 := [to3Bit c, to3Bit d] }

/-- The eight entries of R160. -/
def defaultEnvRom : EnvRom where
  w0 := onePhase false contourZero
  w1 := onePhase true contourMax
  w2 := onePhase false contourDecay
  w3 := onePhase true contourDecay
  w4 := twoPhase false contourAttack contourDecay
  w5 := twoPhase true contourAttack contourDecay
  w6 := onePhase false contourAttack
  w7 := onePhase true contourAttack

/-- The parameter defaults of 00_scope.md R6. -/
def defaultParams : Params where
  freqRom := .formula
  noiseAdd := .formula
  noiseSeed := 0x11111111
  envRom := defaultEnvRom
  envAmp := .simpleProduct
  gain := 182
  hpfEnable := true
  hpfA := 47
  hpfB := 65489

/-- The configuration defaults of 00_scope.md R6. -/
def defaultCfg : Cfg where
  clockHz := 8000000
  sampleHz := 44100
  oversample := 6

/-! ### Table reads (00_scope.md R9) -/

/-- `ROM_FREQ(oct, off)` (41_frequency_generator.md R100). -/
def romFreq (p : Params) (clockHz : Nat) (oct : BitVec 3) (off : Byte) : Nat :=
  match p.freqRom with
  | .formula => (16 * clockHz * 2 ^ oct.toNat) / (511 - off.toNat)
  | .table entries => (entries.getD (256 * oct.toNat + off.toNat) 0).toNat

/-- `NOISE_ADD(m)` (42_noise_generator.md R140). Mode 3 has no increment and no rule reads one; the
value 0 stands there (DESIGN CHOICE, log 8). -/
def noiseIncrement (p : Params) (clockHz : Nat) (m : BitVec 2) : Nat :=
  if m = 3 then 0
  else match p.noiseAdd with
    | .formula => (16 * clockHz) >>> m.toNat
    | .table add0 add1 add2 => if m = 0 then add0.toNat else if m = 1 then add1.toNat else add2.toNat

/-- `ROM_ENV(w)` (43_envelope_generator.md R160); the last arm is the waveform 7. -/
def romEnv (p : Params) (w : BitVec 3) : EnvEntry :=
  match w.toNat with
  | 0 => p.envRom.w0
  | 1 => p.envRom.w1
  | 2 => p.envRom.w2
  | 3 => p.envRom.w3
  | 4 => p.envRom.w4
  | 5 => p.envRom.w5
  | 6 => p.envRom.w6
  | _ => p.envRom.w7

/-- `phases` of a contour, 1 or 2. -/
def phaseCount (e : EnvEntry) : Nat := if e.twoPhases then 2 else 1

/-- `lvl[r][p][q]` of a contour. -/
def contourLevel (e : EnvEntry) (res3 : Bool) (phase : Fin 2) (pos : BitVec 4) : Nat :=
  (((if res3 then e.lvl3 else e.lvl4).getD phase.val []).getD pos.toNat 0).toNat

/-- `ENV_AMP(v, e, r)` (44_amplifier_mixer.md R205). -/
def envAmp (p : Params) (v : BitVec 4) (level : Nat) (res3 : Bool) : Nat :=
  match p.envAmp with
  | .simpleProduct => (2 * (v.toNat >>> 1) * level) / 15
  | .table entries => (entries.getD (256 * res3.toNat + 16 * v.toNat + level) 0).toNat

/-- `MAXLEVEL(res3)` (43_envelope_generator.md R161). -/
def maxLevel (res3 : Bool) : Nat := if res3 then 14 else 15

/-- `STEP(res3)` (43_envelope_generator.md R161). -/
def stepSize (res3 : Bool) : Nat := if res3 then 2 else 1

/-- `FRAC`, the fractional bits of the phase accumulators (00_scope.md R6). -/
def frac : Nat := 12

/-- `THRESH`, the threshold of every phase accumulator (10_state.md R31). -/
def thresh (c : Cfg) : Nat := c.sampleHz * 2 ^ c.oversample * 2 ^ frac

/-! ### Legal ranges (00_scope.md R6) -/

/-- A legal `CLOCK_HZ`: 1 .. 2^25. -/
def clockLegal (hz : Nat) : Bool := decide (1 ≤ hz) && decide (hz ≤ 2 ^ 25)

/-- A legal `SAMPLE_HZ`: 1 .. 2^20. -/
def rateLegal (hz : Nat) : Bool := decide (1 ≤ hz) && decide (hz ≤ 2 ^ 20)

/-- A legal `OVERSAMPLE`: 0 .. 8. -/
def oversampleLegal (n : Nat) : Bool := decide (n ≤ 8)

/-- A legal configuration. -/
def cfgLegal (c : Cfg) : Bool := clockLegal c.clockHz && rateLegal c.sampleHz && oversampleLegal c.oversample

/-- A contour whose 3-bit levels are at most 14, the "tableMax" of 3-bit resolution
(43_envelope_generator.md R161). -/
def entryLegal (e : EnvEntry) : Bool := e.lvl3.all (fun ls => ls.all (fun l => decide (l.toNat ≤ 14)))

/-- Legal parameters: GAIN, HPF_A and HPF_B at most 2^16, and contours within their maximum level. The
bounds on table entries hold by their types. -/
def paramsLegal (p : Params) : Bool :=
  decide (p.gain ≤ 2 ^ 16) && decide (p.hpfA ≤ 2 ^ 16) && decide (p.hpfB ≤ 2 ^ 16)
    && entryLegal p.envRom.w0 && entryLegal p.envRom.w1 && entryLegal p.envRom.w2
    && entryLegal p.envRom.w3 && entryLegal p.envRom.w4 && entryLegal p.envRom.w5
    && entryLegal p.envRom.w6 && entryLegal p.envRom.w7

end Sys2Proof.Machine
end

