-- ==== Sys2Proof/Machine/Parts.lean ====
section
/-! DEFINITION. The parts of the block as plain data (10_state.md R22, R24, R26, R28), each with its
power-on value (70_reset_and_hazards.md R300), and the output frame. -/

namespace Sys2Proof.Machine

/-- An oscillator's square-wave level (10_state.md R22): 0 or 2. -/
inductive Level where
  /-- Level 0. -/
  | low
  /-- Level 2. -/
  | high
  deriving DecidableEq, Repr

/-- The level as the spec's number. -/
def Level.val : Level → Nat
  | .low => 0
  | .high => 2

/-- `2 - level` (41_frequency_generator.md R107). -/
def Level.flip : Level → Level
  | .low => .high
  | .high => .low

/-- A frequency generator `osc[i]` (10_state.md R22). -/
structure Osc where
  /-- Fractional phase accumulator. -/
  counter : Nat
  /-- Period increment in use. -/
  add : Nat
  /-- Octave in use. -/
  curOct : BitVec 3
  /-- Offset in use. -/
  curOff : Byte
  /-- Last octave written. -/
  nextOct : BitVec 3
  /-- Last offset written. -/
  nextOff : Byte
  /-- A written value still waits to be applied. -/
  newData : Bool
  /-- An octave was written since the last apply. -/
  octWritten : Bool
  /-- The next apply skips the offset. -/
  ignoreOffset : Bool
  /-- Reset-and-hold. -/
  sync : Bool
  /-- Square-wave output. -/
  level : Level
  deriving DecidableEq, Repr

/-- A noise generator `noise[j]` (10_state.md R24). -/
structure Noise where
  /-- The 32-bit generator register. -/
  reg : BitVec 32
  /-- Rate counter. -/
  counter : Nat
  /-- Source mode, 0..3. -/
  mode : BitVec 2
  /-- Reset-and-hold. -/
  sync : Bool
  deriving DecidableEq, Repr

/-- An envelope generator `env[j]` (10_state.md R26). -/
structure Env where
  /-- Enable flag. -/
  enabled : Bool
  /-- Waveform selector. -/
  waveform : BitVec 3
  /-- Resolution: false = 4-bit, true = 3-bit. -/
  res3 : Bool
  /-- Right-channel-invert flag. -/
  invertRight : Bool
  /-- Clock source: false = internal, true = external. -/
  extClock : Bool
  /-- Envelope ended. -/
  ended : Bool
  /-- Ready for new data. -/
  ready : Bool
  /-- Current phase index. -/
  phase : Fin 2
  /-- Current position within the phase. -/
  pos : BitVec 4
  /-- A buffered control byte exists. -/
  pendValid : Bool
  /-- The buffered control byte. -/
  pendByte : Byte
  deriving DecidableEq, Repr

/-- An amplifier `amp[i]` (10_state.md R28). -/
structure Amp where
  /-- Left volume nibble. -/
  volL : BitVec 4
  /-- Right volume nibble. -/
  volR : BitVec 4
  /-- Tone mix bit. -/
  toneEn : Bool
  /-- Noise mix bit. -/
  noiseEn : Bool
  /-- Global mute copy. -/
  mute : Bool
  /-- Global sync copy. -/
  sync : Bool
  /-- The most recent 0/1/2-valued intermediate. -/
  inter : Fin 3
  deriving DecidableEq, Repr

/-- One output frame: the left sample, then the right one (45_device_pipeline.md R244). -/
structure Frame where
  /-- Left sample. -/
  left : Sample
  /-- Right sample. -/
  right : Sample
  deriving DecidableEq, Repr

/-- An oscillator at power-on (70_reset_and_hazards.md R300). -/
def oscPowerOn (p : Params) (clockHz : Nat) : Osc where
  counter := 0
  add := romFreq p clockHz 0 0
  curOct := 0
  curOff := 0
  nextOct := 0
  nextOff := 0
  newData := false
  octWritten := false
  ignoreOffset := false
  sync := false
  level := .low

/-- A noise generator at power-on. -/
def noisePowerOn (p : Params) : Noise where
  reg := p.noiseSeed
  counter := 0
  mode := 0
  sync := false

/-- An envelope generator at power-on. -/
def envPowerOn : Env where
  enabled := false
  waveform := 0
  res3 := false
  invertRight := false
  extClock := false
  ended := true
  ready := true
  phase := 0
  pos := 0
  pendValid := false
  pendByte := 0

/-- An amplifier at power-on: muted. -/
def ampPowerOn : Amp where
  volL := 0
  volR := 0
  toneEn := false
  noiseEn := false
  mute := true
  sync := false
  inter := 0

end Sys2Proof.Machine
end

