-- ==== Sys2Proof/Syntax.lean ====
section
/-! DEFINITION. The operations of the block: one constructor of `Instr` per row of
spec/opcode_table.json, the host's requests, and the two encoded forms a decoder reads. -/

namespace Sys2Proof

/-- The 39 operations of the block (30_encoding.md R82, R83, R85). A data write (WD) is one
constructor per register address; its operands are the fields R83 takes from the byte D. -/
inductive Instr where
  /-- WA: address write of `reg` (45_device_pipeline.md R230). -/
  | wa (reg : Byte)
  /-- WD_AMP0: stereo volume of channel 0 (44_amplifier_mixer.md R210). -/
  | wdAmp0 (volL volR : BitVec 4)
  /-- WD_AMP1: stereo volume of channel 1 (44_amplifier_mixer.md R211). -/
  | wdAmp1 (volL volR : BitVec 4)
  /-- WD_AMP2: stereo volume of channel 2 (44_amplifier_mixer.md R212). -/
  | wdAmp2 (volL volR : BitVec 4)
  /-- WD_AMP3: stereo volume of channel 3 (44_amplifier_mixer.md R213). -/
  | wdAmp3 (volL volR : BitVec 4)
  /-- WD_AMP4: stereo volume of channel 4 (44_amplifier_mixer.md R214). -/
  | wdAmp4 (volL volR : BitVec 4)
  /-- WD_AMP5: stereo volume of channel 5 (44_amplifier_mixer.md R215). -/
  | wdAmp5 (volL volR : BitVec 4)
  /-- WD_FREQ0: offset of oscillator 0 (41_frequency_generator.md R110). -/
  | wdFreq0 (offset : Byte)
  /-- WD_FREQ1: offset of oscillator 1 (41_frequency_generator.md R111). -/
  | wdFreq1 (offset : Byte)
  /-- WD_FREQ2: offset of oscillator 2 (41_frequency_generator.md R112). -/
  | wdFreq2 (offset : Byte)
  /-- WD_FREQ3: offset of oscillator 3 (41_frequency_generator.md R113). -/
  | wdFreq3 (offset : Byte)
  /-- WD_FREQ4: offset of oscillator 4 (41_frequency_generator.md R114). -/
  | wdFreq4 (offset : Byte)
  /-- WD_FREQ5: offset of oscillator 5 (41_frequency_generator.md R115). -/
  | wdFreq5 (offset : Byte)
  /-- WD_OCT01: octaves of oscillators 0 and 1 (41_frequency_generator.md R116). -/
  | wdOct01 (octA octB : BitVec 3)
  /-- WD_OCT23: octaves of oscillators 2 and 3 (41_frequency_generator.md R117). -/
  | wdOct23 (octA octB : BitVec 3)
  /-- WD_OCT45: octaves of oscillators 4 and 5 (41_frequency_generator.md R118). -/
  | wdOct45 (octA octB : BitVec 3)
  /-- WD_TONEEN: bit i enables the tone of channel i (44_amplifier_mixer.md R216). -/
  | wdToneEn (t : BitVec 6)
  /-- WD_NOISEEN: bit i enables the noise of channel i (44_amplifier_mixer.md R217). -/
  | wdNoiseEn (n : BitVec 6)
  /-- WD_NOISEMODE: source modes of noise A and noise B (42_noise_generator.md R147). -/
  | wdNoiseMode (modeA modeB : BitVec 2)
  /-- WD_ENVA: control byte of envelope generator A (43_envelope_generator.md R180). -/
  | wdEnvA (ctrl : Byte)
  /-- WD_ENVB: control byte of envelope generator B (43_envelope_generator.md R181). -/
  | wdEnvB (ctrl : Byte)
  /-- WD_CTRL: global output enable and global sync (45_device_pipeline.md R233). -/
  | wdCtrl (en sy : Bool)
  /-- WD_NOP_6: data write to the unused register 6 (45_device_pipeline.md R260). -/
  | wdNop6
  /-- WD_NOP_7: data write to the unused register 7 (45_device_pipeline.md R261). -/
  | wdNop7
  /-- WD_NOP_14: data write to the unused register 14 (45_device_pipeline.md R262). -/
  | wdNop14
  /-- WD_NOP_15: data write to the unused register 15 (45_device_pipeline.md R263). -/
  | wdNop15
  /-- WD_NOP_19: data write to the unused register 19 (45_device_pipeline.md R264). -/
  | wdNop19
  /-- WD_NOP_23: data write to the unused register 23 (45_device_pipeline.md R265). -/
  | wdNop23
  /-- WD_NOP_26: data write to the unused register 26 (45_device_pipeline.md R266). -/
  | wdNop26
  /-- WD_NOP_27: data write to the unused register 27 (45_device_pipeline.md R267). -/
  | wdNop27
  /-- WD_NOP_29: data write to the unused register 29 (45_device_pipeline.md R268). -/
  | wdNop29
  /-- WD_NOP_30: data write to the unused register 30 (45_device_pipeline.md R269). -/
  | wdNop30
  /-- WD_NOP_31: data write to the unused register 31 (45_device_pipeline.md R270). -/
  | wdNop31
  /-- SAMPLE: produce one output frame (45_device_pipeline.md R241). -/
  | sample
  /-- GEN: produce `count` output frames (45_device_pipeline.md R245). -/
  | gen (count : Nat)
  /-- CLEAR: the canonical reset sequence (45_device_pipeline.md R255). -/
  | clear
  /-- SET_CLOCK: set the master clock rate (45_device_pipeline.md R250). -/
  | setClock (hz : Nat)
  /-- SET_RATE: set the output sample rate (45_device_pipeline.md R251). -/
  | setRate (hz : Nat)
  /-- SET_OVERSAMPLE: set the oversample exponent (45_device_pipeline.md R252). -/
  | setOversample (n : Nat)
  deriving DecidableEq, Repr

/-- What a host could ask to read; the block has no read port (20_memory.md R64). -/
inductive ReadTarget where
  /-- A register address. -/
  | register (reg : Byte)
  /-- One of the internal tables FREQ_ROM, ENV_ROM and ENV_AMP. -/
  | internalTable
  deriving DecidableEq, Repr

/-- One request of the host (00_scope.md R5): a bus word, a host command record, or a read, which is
not an operation of the block. -/
inductive Request where
  /-- A bus transaction (30_encoding.md R80). -/
  | bus (w : BusWord)
  /-- A host command `(op, arg)` (30_encoding.md R82). -/
  | host (op : BitVec 4) (arg : Nat)
  /-- A read request (20_memory.md R64). -/
  | read (target : ReadTarget)
  deriving DecidableEq, Repr

/-- The two forms a decoder reads: the key DK of a bus word under the current latch
(30_encoding.md R81) and the host command record (R82). -/
inductive Encoded where
  /-- Format DK. -/
  | dk (key : Key)
  /-- Format HOST. -/
  | host (op : BitVec 4) (arg : Nat)
  deriving DecidableEq, Repr

end Sys2Proof
end

