-- ==== Sys2Proof/Machine/State.lean ====
section
/-! DEFINITION. The state of the block as plain data (10_state.md R20 to R31), the reasons a step can
stop, and the state right after power-on (70_reset_and_hazards.md R300). The block has no data memory
(20_memory.md R60), so no field holds one. -/

namespace Sys2Proof.Machine

/-- The record `dev` (10_state.md R20, R29, R30), the output stream (20_memory.md R60), and the host's
transactions not yet performed (20_memory.md R69). -/
structure State where
  /-- The six frequency generators. -/
  osc : Six Osc
  /-- The two noise generators. -/
  noise : Two Noise
  /-- The two envelope generators. -/
  env : Two Env
  /-- The six amplifiers. -/
  amp : Six Amp
  /-- The current register latch. -/
  latch : BitVec 5
  /-- Last written register 28 bit 0, the global output enable. -/
  enable : Bool
  /-- Last written register 28 bit 1, the global sync. -/
  gsync : Bool
  /-- Left highpass accumulator, in units of 2^-16. -/
  zL : Int
  /-- Right highpass accumulator, in units of 2^-16. -/
  zR : Int
  /-- Clock rate, sample rate and oversample exponent. -/
  cfg : Cfg
  /-- The fixed parameters; no operation writes them (DESIGN CHOICE to hold them here, log 4). -/
  params : Params
  /-- The frames emitted so far, the oldest first (DESIGN CHOICE to hold the stream here, log 3). -/
  out : List Frame
  /-- The host's requests not yet performed, the next first: the MODEL'S OWN field (DESIGN CHOICE, log 1). -/
  pending : List Request
  deriving DecidableEq, Repr

/-- The faults of the block: there are none (60_exceptions.md R280), so no step raises one. -/
inductive Fault
  deriving DecidableEq, Repr

/-- Why a step refuses a request (60_exceptions.md R281). Each is safe: no state is claimed after it. -/
inductive Refusal where
  /-- Raised by an arm of `exec` whose instruction has no meaning yet; safe. Every arm has one. -/
  | notModelled (mnemonic : String)
  /-- Raised by SET_CLOCK, SET_RATE and SET_OVERSAMPLE for a value outside its legal range
  (45_device_pipeline.md R250 to R252); safe. -/
  | configOutOfRange
  /-- Raised by `step` for a host record with op 0x6..0xF (30_encoding.md R88); safe. -/
  | reservedHostOp
  /-- Raised by `step` for a read request (20_memory.md R64); safe. -/
  | noReadPort
  deriving DecidableEq, Repr

/-- What an instruction or a step answers. -/
abbrev Result := Host.Outcome State Fault Refusal

/-- The block right after power-on with given parameters and configuration (70_reset_and_hazards.md
R300); no frame emitted, no request issued. It takes parameters and configurations outside the legal ranges of
00_scope.md R6 too, and a step runs with them by the rules as they stand (DESIGN CHOICE, log 18). -/
def State.powerOn (p : Params) (c : Cfg) : State where
  osc := Six.ofFn (fun _ => oscPowerOn p c.clockHz)
  noise := ⟨noisePowerOn p, noisePowerOn p⟩
  env := ⟨envPowerOn, envPowerOn⟩
  amp := Six.ofFn (fun _ => ampPowerOn)
  latch := 0
  enable := false
  gsync := false
  zL := 0
  zR := 0
  cfg := c
  params := p
  out := []
  pending := []

/-- The block right after power-on at the defaults of 00_scope.md R6. -/
def State.reset : State := State.powerOn defaultParams defaultCfg

end Sys2Proof.Machine
end

