-- ==== Sys2Proof/Machine/Ops.lean ====
section
/-! DEFINITION. The operations that read and replace one part of the block, and the repetition the
rules' `repeat` and `while` are written with (00_scope.md R9). The block takes no exception and has no
return from one (60_exceptions.md R281), so there is no operation for either. -/

namespace Sys2Proof.Machine

/-- `repeat n: f`. -/
def iter {α : Type} : Nat → (α → α) → α → α
  | 0, _, a => a
  | n + 1, f, a => iter n f (f a)

/-- `while c: f`, for at most `fuel` iterations. Each use gives the number of iterations the rule's
loop makes, and a lemma under Laws/ shows that its condition is then false (log 6). -/
def whileDo {α : Type} : Nat → (α → Bool) → (α → α) → α → α
  | 0, _, _, a => a
  | fuel + 1, c, f, a => if c a then whileDo fuel c f (f a) else a

/-- The channels in the order of `for i in 0..5`. -/
def channels : List Chan := [0, 1, 2, 3, 4, 5]

/-- `osc[i]`. -/
@[simp] abbrev State.oscAt (s : State) (i : Chan) : Osc := s.osc.get i

/-- `osc[i]` replaced. -/
def State.setOsc (s : State) (i : Chan) (o : Osc) : State := { s with osc := s.osc.set i o }

/-- `noise[j]`. -/
@[simp] abbrev State.noiseAt (s : State) (j : Gen) : Noise := s.noise.get j

/-- `noise[j]` replaced. -/
def State.setNoise (s : State) (j : Gen) (n : Noise) : State := { s with noise := s.noise.set j n }

/-- `env[j]`. -/
@[simp] abbrev State.envAt (s : State) (j : Gen) : Env := s.env.get j

/-- `env[j]` replaced. -/
def State.setEnv (s : State) (j : Gen) (e : Env) : State := { s with env := s.env.set j e }

/-- `amp[i]`. -/
@[simp] abbrev State.ampAt (s : State) (i : Chan) : Amp := s.amp.get i

/-- `amp[i]` replaced. -/
def State.setAmp (s : State) (i : Chan) (a : Amp) : State := { s with amp := s.amp.set i a }

/-- `ROM_FREQ` at the state's parameters and clock rate. -/
def State.rom (s : State) (oct : BitVec 3) (off : Byte) : Nat := romFreq s.params s.cfg.clockHz oct off

/-- `THRESH` at the state's configuration (10_state.md R31). -/
def State.thresh (s : State) : Nat := Sys2Proof.Machine.thresh s.cfg

/-- `NOISE_OF(i)` (10_state.md R21). -/
def noiseOf (i : Chan) : Gen := if i.val ≤ 2 then 0 else 1

/-- `ENV_OF(i)` (10_state.md R21). -/
def envOf (i : Chan) : Option Gen := if i = 2 then some 0 else if i = 5 then some 1 else none

/-- `asr(a, k)`: the floor of `a / 2^k` (00_scope.md R9). -/
def asr (a : Int) (k : Nat) : Int := a / (2 ^ k : Nat)

/-- `clamp16` (00_scope.md R9), as a 16-bit two's-complement sample (45_device_pipeline.md R244). -/
def clamp16 (v : Int) : Sample := BitVec.ofInt 16 (min 32767 (max (-32768) v))

end Sys2Proof.Machine
end

