-- ==== Sys2Proof/Machine/Flags.lean ====
section
/-! DEFINITION. The status flags of 10_state.md R33: the buffering flags of an oscillator, the ready and
ended flags of an envelope generator, and the mute and sync copies. The block has no condition codes. -/

namespace Sys2Proof.Machine

/-- The flags an offset write outside sync sets (41_frequency_generator.md R102). -/
def flagOffset (o : Osc) : Osc :=
  { o with newData := true, ignoreOffset := o.ignoreOffset || o.octWritten }

/-- The flags an octave write outside sync sets (41_frequency_generator.md R103). -/
def flagOctave (o : Osc) : Osc := { o with newData := true, octWritten := true }

/-- All buffering flags cleared (41_frequency_generator.md R105). -/
def clearFlags (o : Osc) : Osc := { o with newData := false, octWritten := false, ignoreOffset := false }

/-- The cycle end: ready for new data, and ended unless the contour loops
(43_envelope_generator.md R168). -/
def flagCycleEnd (loop : Bool) (e : Env) : Env := { e with ready := true, ended := e.ended || !loop }

/-- `ampMute(i, x)` (44_amplifier_mixer.md R208). -/
def ampMute (x : Bool) (a : Amp) : Amp := { a with mute := x }

/-- `ampSync(i, x)` (44_amplifier_mixer.md R208). -/
def ampSync (x : Bool) (a : Amp) : Amp := { a with sync := x }

/-- `mix(i) = {noiseEn, toneEn}` (44_amplifier_mixer.md R201). -/
def mixMode (a : Amp) : BitVec 2 := BitVec.ofBool a.noiseEn ++ BitVec.ofBool a.toneEn

end Sys2Proof.Machine
end

