-- ==== Sys2Proof/WellFormed.lean ====
section
/-! DEFINITION. Which terms of `Instr` are operations of the block. Every bus operand is a bit field
of its own width, so it is always legal (30_encoding.md R86); GEN's count is in the range R82 gives it.
A GEN of a larger count is not well-formed but runs all the same, for its arg is a natural (R84) and no
rule refuses it (log 7). SET_CLOCK, SET_RATE and SET_OVERSAMPLE take any natural here: out of its range
each is refused when it runs (R84). -/

namespace Sys2Proof

/-- The first count past the range R82 gives GEN (30_encoding.md R82: "count, 0 .. 2^32 - 1"). -/
def genCountBound : Nat := 2 ^ 32

/-- The well-formed operations. -/
def Instr.wellFormed : Instr → Bool
  | .wa _ => true
  | .wdAmp0 _ _ => true
  | .wdAmp1 _ _ => true
  | .wdAmp2 _ _ => true
  | .wdAmp3 _ _ => true
  | .wdAmp4 _ _ => true
  | .wdAmp5 _ _ => true
  | .wdFreq0 _ => true
  | .wdFreq1 _ => true
  | .wdFreq2 _ => true
  | .wdFreq3 _ => true
  | .wdFreq4 _ => true
  | .wdFreq5 _ => true
  | .wdOct01 _ _ => true
  | .wdOct23 _ _ => true
  | .wdOct45 _ _ => true
  | .wdToneEn _ => true
  | .wdNoiseEn _ => true
  | .wdNoiseMode _ _ => true
  | .wdEnvA _ => true
  | .wdEnvB _ => true
  | .wdCtrl _ _ => true
  | .wdNop6 => true
  | .wdNop7 => true
  | .wdNop14 => true
  | .wdNop15 => true
  | .wdNop19 => true
  | .wdNop23 => true
  | .wdNop26 => true
  | .wdNop27 => true
  | .wdNop29 => true
  | .wdNop30 => true
  | .wdNop31 => true
  | .sample => true
  | .gen count => decide (count < genCountBound)
  | .clear => true
  | .setClock _ => true
  | .setRate _ => true
  | .setOversample _ => true

end Sys2Proof
end

