-- ==== Sys2Proof/Decode.lean ====
section
/-! DEFINITION. The decoder and the encoder (30_encoding.md R80 to R88), and the opcode table as data.
Decoding is total: every decode key is an operation (R86), and a host record is one or is rejected by
name (R88). -/

namespace Sys2Proof

/-! ### The fields of a data byte (30_encoding.md R83) -/

/-- `D[3:0]`. -/
def lowNibble (d : Byte) : BitVec 4 := d.extractLsb' 0 4

/-- `D[7:4]`. -/
def highNibble (d : Byte) : BitVec 4 := d.extractLsb' 4 4

/-- `D[2:0]`, the octave of the lower-numbered oscillator; bit 3 is ignored (10_state.md R38). -/
def lowOctave (d : Byte) : BitVec 3 := d.extractLsb' 0 3

/-- `D[6:4]`, the octave of the higher-numbered oscillator; bit 7 is ignored. -/
def highOctave (d : Byte) : BitVec 3 := d.extractLsb' 4 3

/-- `D[5:0]`, one bit per channel; bits 7:6 are ignored (10_state.md R41, R42). -/
def channelBits (d : Byte) : BitVec 6 := d.extractLsb' 0 6

/-- `D[1:0]`, the mode of noise A; bits 3:2 are ignored (10_state.md R43). -/
def lowMode (d : Byte) : BitVec 2 := d.extractLsb' 0 2

/-- `D[5:4]`, the mode of noise B; bits 7:6 are ignored. -/
def highMode (d : Byte) : BitVec 2 := d.extractLsb' 4 2

/-- `D[i]`. -/
def bitOf (d : Byte) (i : Nat) : Bool := d.getLsbD i

/-! ### The fields of the encoded forms -/

/-- The address a WA byte selects: its low 5 bits (20_memory.md R61). -/
def regOfByte (d : Byte) : BitVec 5 := d.extractLsb' 0 5

/-- `L`, the latch of a decode key (30_encoding.md R81). -/
def keyLatch (k : Key) : BitVec 5 := k.extractLsb' 9 5

/-- `A0` of a decode key. -/
def keyA0 (k : Key) : Bool := k.getLsbD 8

/-- `D` of a decode key. -/
def keyData (k : Key) : Byte := k.extractLsb' 0 8

/-- The bus word of a decode key: its bits 8:0. -/
def keyBus (k : Key) : BusWord := k.extractLsb' 0 9

/-- `DK = {latch, BW}` (30_encoding.md R81). -/
def busKey (latch : BitVec 5) (w : BusWord) : Key := latch ++ w

/-- The bus word of a data write of `d`: A0 = 0 (30_encoding.md R80). -/
def dataWord (d : Byte) : BusWord := 0#1 ++ d

/-- The bus word of an address write of `reg`: A0 = 1. -/
def addressWord (reg : Byte) : BusWord := 1#1 ++ reg

/-! ### Decoding -/

/-- The data write that the latch selects (30_encoding.md R85, operands as R83). The last arm is the
value 31, the only one the arms before it leave. -/
def decodeData (l : BitVec 5) (d : Byte) : Instr :=
  match l.toNat with
  | 0 => .wdAmp0 (lowNibble d) (highNibble d)
  | 1 => .wdAmp1 (lowNibble d) (highNibble d)
  | 2 => .wdAmp2 (lowNibble d) (highNibble d)
  | 3 => .wdAmp3 (lowNibble d) (highNibble d)
  | 4 => .wdAmp4 (lowNibble d) (highNibble d)
  | 5 => .wdAmp5 (lowNibble d) (highNibble d)
  | 6 => .wdNop6
  | 7 => .wdNop7
  | 8 => .wdFreq0 d
  | 9 => .wdFreq1 d
  | 10 => .wdFreq2 d
  | 11 => .wdFreq3 d
  | 12 => .wdFreq4 d
  | 13 => .wdFreq5 d
  | 14 => .wdNop14
  | 15 => .wdNop15
  | 16 => .wdOct01 (lowOctave d) (highOctave d)
  | 17 => .wdOct23 (lowOctave d) (highOctave d)
  | 18 => .wdOct45 (lowOctave d) (highOctave d)
  | 19 => .wdNop19
  | 20 => .wdToneEn (channelBits d)
  | 21 => .wdNoiseEn (channelBits d)
  | 22 => .wdNoiseMode (lowMode d) (highMode d)
  | 23 => .wdNop23
  | 24 => .wdEnvA d
  | 25 => .wdEnvB d
  | 26 => .wdNop26
  | 27 => .wdNop27
  | 28 => .wdCtrl (bitOf d 0) (bitOf d 1)
  | 29 => .wdNop29
  | 30 => .wdNop30
  | _ => .wdNop31

/-- The operation of a decode key (30_encoding.md R85): total, no bus word is illegal (R86). -/
def decodeKey (k : Key) : Instr :=
  if keyA0 k then .wa (keyData k) else decodeData (keyLatch k) (keyData k)

/-- Why a host record is no operation of the block. -/
inductive DecodeError where
  /-- The op code is one of 0x6..0xF (30_encoding.md R88). -/
  | reservedHostOp (op : BitVec 4)
  deriving DecidableEq, Repr

/-- The operation of a host record (30_encoding.md R82). The arg is a natural, GEN's is the frame count, and
SAMPLE and CLEAR ignore it (R84); a count past R82's range is a count like any other (DEDUCED, log 7). -/
def decodeHost (op : BitVec 4) (arg : Nat) : Except DecodeError Instr :=
  match op.toNat with
  | 0 => .ok .sample
  | 1 => .ok (.gen arg)
  | 2 => .ok .clear
  | 3 => .ok (.setClock arg)
  | 4 => .ok (.setRate arg)
  | 5 => .ok (.setOversample arg)
  | _ => .error (.reservedHostOp op)

/-- The operation of an encoded form. -/
def decode : Encoded → Except DecodeError Instr
  | .dk key => .ok (decodeKey key)
  | .host op arg => decodeHost op arg

/-! ### Encoding -/

/-- The key of a data write of `d` to register `l`. -/
def dataKey (l : BitVec 5) (d : Byte) : Key := busKey l (dataWord d)

/-- The byte of two nibbles, the high one first. -/
def packNibbles (hi lo : BitVec 4) : Byte := hi ++ lo

/-- The byte of two octaves, with the ignored bits 0. -/
def packOctaves (octA octB : BitVec 3) : Byte := packNibbles (octB.zeroExtend 4) (octA.zeroExtend 4)

/-- The byte of two noise modes, with the ignored bits 0. -/
def packModes (modeA modeB : BitVec 2) : Byte := packNibbles (modeB.zeroExtend 4) (modeA.zeroExtend 4)

/-- The byte of WD_CTRL, with the ignored bits 0. -/
def packCtrl (en sy : Bool) : Byte := 0#6 ++ (BitVec.ofBool sy ++ BitVec.ofBool en)

/-- The encoded form of an operation. Ignored bits are written 0, and an address write, which does
not depend on the latch (30_encoding.md R81), is given with `L` = 0 (DESIGN CHOICE, log 2). -/
def encode : Instr → Encoded
  | .wa reg => .dk (busKey 0 (addressWord reg))
  | .wdAmp0 volL volR => .dk (dataKey 0 (packNibbles volR volL))
  | .wdAmp1 volL volR => .dk (dataKey 1 (packNibbles volR volL))
  | .wdAmp2 volL volR => .dk (dataKey 2 (packNibbles volR volL))
  | .wdAmp3 volL volR => .dk (dataKey 3 (packNibbles volR volL))
  | .wdAmp4 volL volR => .dk (dataKey 4 (packNibbles volR volL))
  | .wdAmp5 volL volR => .dk (dataKey 5 (packNibbles volR volL))
  | .wdFreq0 offset => .dk (dataKey 8 offset)
  | .wdFreq1 offset => .dk (dataKey 9 offset)
  | .wdFreq2 offset => .dk (dataKey 10 offset)
  | .wdFreq3 offset => .dk (dataKey 11 offset)
  | .wdFreq4 offset => .dk (dataKey 12 offset)
  | .wdFreq5 offset => .dk (dataKey 13 offset)
  | .wdOct01 octA octB => .dk (dataKey 16 (packOctaves octA octB))
  | .wdOct23 octA octB => .dk (dataKey 17 (packOctaves octA octB))
  | .wdOct45 octA octB => .dk (dataKey 18 (packOctaves octA octB))
  | .wdToneEn t => .dk (dataKey 20 (t.zeroExtend 8))
  | .wdNoiseEn n => .dk (dataKey 21 (n.zeroExtend 8))
  | .wdNoiseMode modeA modeB => .dk (dataKey 22 (packModes modeA modeB))
  | .wdEnvA ctrl => .dk (dataKey 24 ctrl)
  | .wdEnvB ctrl => .dk (dataKey 25 ctrl)
  | .wdCtrl en sy => .dk (dataKey 28 (packCtrl en sy))
  | .wdNop6 => .dk (dataKey 6 0)
  | .wdNop7 => .dk (dataKey 7 0)
  | .wdNop14 => .dk (dataKey 14 0)
  | .wdNop15 => .dk (dataKey 15 0)
  | .wdNop19 => .dk (dataKey 19 0)
  | .wdNop23 => .dk (dataKey 23 0)
  | .wdNop26 => .dk (dataKey 26 0)
  | .wdNop27 => .dk (dataKey 27 0)
  | .wdNop29 => .dk (dataKey 29 0)
  | .wdNop30 => .dk (dataKey 30 0)
  | .wdNop31 => .dk (dataKey 31 0)
  | .sample => .host 0 0
  | .gen count => .host 1 count
  | .clear => .host 2 0
  | .setClock hz => .host 3 hz
  | .setRate hz => .host 4 hz
  | .setOversample n => .host 5 n

/-! ### The opcode table -/

/-- An operation's mnemonic in spec/opcode_table.json. -/
def Instr.mnemonic : Instr → String
  | .wa _ => "WA"
  | .wdAmp0 _ _ => "WD_AMP0"
  | .wdAmp1 _ _ => "WD_AMP1"
  | .wdAmp2 _ _ => "WD_AMP2"
  | .wdAmp3 _ _ => "WD_AMP3"
  | .wdAmp4 _ _ => "WD_AMP4"
  | .wdAmp5 _ _ => "WD_AMP5"
  | .wdFreq0 _ => "WD_FREQ0"
  | .wdFreq1 _ => "WD_FREQ1"
  | .wdFreq2 _ => "WD_FREQ2"
  | .wdFreq3 _ => "WD_FREQ3"
  | .wdFreq4 _ => "WD_FREQ4"
  | .wdFreq5 _ => "WD_FREQ5"
  | .wdOct01 _ _ => "WD_OCT01"
  | .wdOct23 _ _ => "WD_OCT23"
  | .wdOct45 _ _ => "WD_OCT45"
  | .wdToneEn _ => "WD_TONEEN"
  | .wdNoiseEn _ => "WD_NOISEEN"
  | .wdNoiseMode _ _ => "WD_NOISEMODE"
  | .wdEnvA _ => "WD_ENVA"
  | .wdEnvB _ => "WD_ENVB"
  | .wdCtrl _ _ => "WD_CTRL"
  | .wdNop6 => "WD_NOP_6"
  | .wdNop7 => "WD_NOP_7"
  | .wdNop14 => "WD_NOP_14"
  | .wdNop15 => "WD_NOP_15"
  | .wdNop19 => "WD_NOP_19"
  | .wdNop23 => "WD_NOP_23"
  | .wdNop26 => "WD_NOP_26"
  | .wdNop27 => "WD_NOP_27"
  | .wdNop29 => "WD_NOP_29"
  | .wdNop30 => "WD_NOP_30"
  | .wdNop31 => "WD_NOP_31"
  | .sample => "SAMPLE"
  | .gen _ => "GEN"
  | .clear => "CLEAR"
  | .setClock _ => "SET_CLOCK"
  | .setRate _ => "SET_RATE"
  | .setOversample _ => "SET_OVERSAMPLE"

/-- A row of spec/opcode_table.json in format DK: it matches the keys whose bits under `mask` are
those of `pattern` (30_encoding.md R81, R85). -/
structure KeyRow where
  /-- The row's mnemonic. -/
  mnemonic : String
  /-- The row's "match". -/
  pattern : Key
  /-- The row's "mask". -/
  mask : Key
  deriving DecidableEq, Repr

/-- Whether a row matches a key. -/
def KeyRow.matchesKey (r : KeyRow) (k : Key) : Bool := k &&& r.mask == r.pattern

/-- The 33 DK rows of spec/opcode_table.json, in its order. -/
def keyRows : List KeyRow :=
  [⟨"WA", 0x0100, 0x0100⟩,
   ⟨"WD_AMP0", 0x0000, 0x3F00⟩,
   ⟨"WD_AMP1", 0x0200, 0x3F00⟩,
   ⟨"WD_AMP2", 0x0400, 0x3F00⟩,
   ⟨"WD_AMP3", 0x0600, 0x3F00⟩,
   ⟨"WD_AMP4", 0x0800, 0x3F00⟩,
   ⟨"WD_AMP5", 0x0A00, 0x3F00⟩,
   ⟨"WD_FREQ0", 0x1000, 0x3F00⟩,
   ⟨"WD_FREQ1", 0x1200, 0x3F00⟩,
   ⟨"WD_FREQ2", 0x1400, 0x3F00⟩,
   ⟨"WD_FREQ3", 0x1600, 0x3F00⟩,
   ⟨"WD_FREQ4", 0x1800, 0x3F00⟩,
   ⟨"WD_FREQ5", 0x1A00, 0x3F00⟩,
   ⟨"WD_OCT01", 0x2000, 0x3F00⟩,
   ⟨"WD_OCT23", 0x2200, 0x3F00⟩,
   ⟨"WD_OCT45", 0x2400, 0x3F00⟩,
   ⟨"WD_TONEEN", 0x2800, 0x3F00⟩,
   ⟨"WD_NOISEEN", 0x2A00, 0x3F00⟩,
   ⟨"WD_NOISEMODE", 0x2C00, 0x3F00⟩,
   ⟨"WD_ENVA", 0x3000, 0x3F00⟩,
   ⟨"WD_ENVB", 0x3200, 0x3F00⟩,
   ⟨"WD_CTRL", 0x3800, 0x3F00⟩,
   ⟨"WD_NOP_6", 0x0C00, 0x3F00⟩,
   ⟨"WD_NOP_7", 0x0E00, 0x3F00⟩,
   ⟨"WD_NOP_14", 0x1C00, 0x3F00⟩,
   ⟨"WD_NOP_15", 0x1E00, 0x3F00⟩,
   ⟨"WD_NOP_19", 0x2600, 0x3F00⟩,
   ⟨"WD_NOP_23", 0x2E00, 0x3F00⟩,
   ⟨"WD_NOP_26", 0x3400, 0x3F00⟩,
   ⟨"WD_NOP_27", 0x3600, 0x3F00⟩,
   ⟨"WD_NOP_29", 0x3A00, 0x3F00⟩,
   ⟨"WD_NOP_30", 0x3C00, 0x3F00⟩,
   ⟨"WD_NOP_31", 0x3E00, 0x3F00⟩]

/-- The 6 HOST rows of spec/opcode_table.json: mnemonic and op, in its order. -/
def hostRows : List (String × BitVec 4) :=
  [("SAMPLE", 0), ("GEN", 1), ("CLEAR", 2), ("SET_CLOCK", 3), ("SET_RATE", 4), ("SET_OVERSAMPLE", 5)]

/-- The operation read from a table word (spec/opcode_table.json's numbering). A row of one byte is a
HOST record, its op in bits 3:0 and its arg above them; a row of two bytes is a decode key, bits 15:14
zero (DESIGN CHOICE, log 2). -/
def encodedOfTableWord (nbits w : Nat) : Option Encoded :=
  if nbits ≤ 8 then some (.host (BitVec.ofNat 4 w) (w / 16))
  else if w < 2 ^ 14 then some (.dk (BitVec.ofNat 14 w)) else none

/-- The operation the decoder reads from a table word, none where it refuses. -/
def decodeTableWord (nbits w : Nat) : Option Instr :=
  match encodedOfTableWord nbits w with
  | none => none
  | some e => match decode e with
    | .ok i => some i
    | .error _ => none

end Sys2Proof
end

