-- ==== Sys2Proof/Machine/Operands.lean ====
section
/-! DEFINITION. The fields of an envelope control byte (10_state.md R44, 43_envelope_generator.md R163).
Bit 6 is no field. The fields of the other data bytes are taken by the decoder (Decode.lean,
30_encoding.md R83). -/

namespace Sys2Proof.Machine

/-- Bit 0: invert-right. -/
def ctrlInvert (b : Byte) : Bool := bitOf b 0

/-- Bits 3:1: waveform select. -/
def ctrlWaveform (b : Byte) : BitVec 3 := b.extractLsb' 1 3

/-- Bit 4: resolution, 1 = 3-bit. -/
def ctrlRes3 (b : Byte) : Bool := bitOf b 4

/-- Bit 5: clock source, 1 = external. -/
def ctrlExtClock (b : Byte) : Bool := bitOf b 5

/-- Bit 7: enable. -/
def ctrlEnable (b : Byte) : Bool := bitOf b 7

end Sys2Proof.Machine
end

