-- ==== Sys2Proof/Machine/Envelope.lean ====
section
/-! DEFINITION. The envelope generators (43_envelope_generator.md), WD_ENVA and WD_ENVB. -/

namespace Sys2Proof.Machine

/-- `load(j, b)` (R162). -/
def envLoad (b : Byte) (e : Env) : Env :=
  { e with
    invertRight := ctrlInvert b
    waveform := ctrlWaveform b
    res3 := ctrlRes3 b
    extClock := ctrlExtClock b
    phase := 0
    pos := 0
    ended := false
    ready := false
    pendValid := false }

/-- `disableWith(j, b)` (R166). -/
def envDisable (b : Byte) (e : Env) : Env :=
  { e with
    enabled := false
    invertRight := ctrlInvert b
    waveform := ctrlWaveform b
    extClock := ctrlExtClock b
    ended := true
    ready := true
    phase := 0
    pos := 0
    pendValid := false }

/-- The enable path of a control write (R165). -/
def envEnable (b : Byte) (e : Env) : Env := envLoad b { e with enabled := true }

/-- The buffer path of a control write, `buffer(j, b)` (R167). -/
def envBuffer (b : Byte) (e : Env) : Env := { e with pendByte := b, pendValid := true }

/-- `setControl(j, b)` (R164): the resolution bit first, always. -/
def envSetControl (b : Byte) (e : Env) : Env :=
  let e := { e with res3 := ctrlRes3 b }
  if !ctrlEnable b then envDisable b e
  else if !e.enabled || e.ready then envEnable b e
  else envBuffer b e

/-- The position has crossed 16 (R168): the next phase, or the cycle end. -/
def envNextPhase (p : Params) (e : Env) : Env :=
  if e.phase.val + 1 ≥ phaseCount (romEnv p e.waveform) then
    flagCycleEnd (romEnv p e.waveform).loop { e with phase := 0 }
  else { e with phase := e.phase + 1 }

/-- The position advanced by one step (R168); it wraps by subtracting 16. -/
def envAdvance (p : Params) (e : Env) : Env :=
  let q := e.pos.toNat + stepSize e.res3
  if q ≥ 16 then envNextPhase p { e with pos := BitVec.ofNat 4 (q - 16) }
  else { e with pos := BitVec.ofNat 4 q }

/-- A buffered byte is loaded once the generator is ready (R168). -/
def envLoadPending (e : Env) : Env := if e.ready && e.pendValid then envLoad e.pendByte e else e

/-- `envClock(j)` (R168). -/
def envClock (p : Params) (e : Env) : Env :=
  if !e.enabled || e.ended then e else envLoadPending (envAdvance p e)

/-- `internalClock(j)` (R169). -/
def internalClock (p : Params) (e : Env) : Env := if e.extClock then e else envClock p e

/-- `externalClock(j)` (R169). -/
def externalClock (p : Params) (e : Env) : Env := if e.extClock then envClock p e else e

/-- `envActive(j)` (R172). -/
def envActive (e : Env) : Bool := e.enabled

/-- `envLeft(j)` (R170). -/
def envLeft (p : Params) (e : Env) : Nat :=
  if !e.enabled || e.ended then 0 else contourLevel (romEnv p e.waveform) e.res3 e.phase e.pos

/-- `envRight(j)` (R171). The subtraction is exact for a contour within its maximum level
(DESIGN CHOICE beyond it, log 9). -/
def envRight (p : Params) (e : Env) : Nat :=
  if !e.enabled || e.ended then 0
  else if e.invertRight then maxLevel e.res3 - envLeft p e
  else envLeft p e

/-- `setControl(j, b)` on the device. -/
def State.setControl (j : Gen) (b : Byte) (s : State) : State := s.setEnv j (envSetControl b (s.envAt j))

/-- WD_ENVA (R180). -/
def execWdEnvA (ctrl : Byte) (s : State) : Result := .next (s.setControl 0 ctrl)

/-- WD_ENVB (R181). -/
def execWdEnvB (ctrl : Byte) (s : State) : Result := .next (s.setControl 1 ctrl)

end Sys2Proof.Machine
end

