-- ==== Sys2Proof/Machine/NoiseGen.lean ====
section
/-! DEFINITION. The noise generators (42_noise_generator.md) and WD_NOISEMODE. -/

namespace Sys2Proof.Machine

/-- `shift(j)` (R141): left by one bit, the taps 30 and 2 read before the shift. -/
def noiseShift (n : Noise) : Noise :=
  { n with reg := (n.reg <<< 1) ||| (BitVec.ofBool (n.reg.getLsbD 30 != n.reg.getLsbD 2)).zeroExtend 32 }

/-- One iteration of `noiseTick`'s loop (R142). -/
def noiseCross (th : Nat) (n : Noise) : Noise := noiseShift { n with counter := n.counter - th }

/-- The loop of `noiseTick` (R142): while the counter is at least the threshold, subtract it and shift. -/
def noiseLoop (th : Nat) (n : Noise) : Noise :=
  whileDo (n.counter / th) (fun m => decide (th ≤ m.counter)) (noiseCross th) n

/-- `noiseTick(j)` (R142), with `th` = THRESH and `inc` = NOISE_ADD(mode). -/
def noiseTick (th inc : Nat) (n : Noise) : Noise :=
  if n.sync || n.mode == 3 then n else noiseLoop th { n with counter := n.counter + inc }

/-- `noiseTrigger(j)` (R143). -/
def noiseTrigger (n : Noise) : Noise := if n.mode == 3 && !n.sync then noiseShift n else n

/-- `setSource(j, m)` (R144). -/
def setSource (m : BitVec 2) (n : Noise) : Noise := { n with mode := m }

/-- `noiseSync(j, b)` (R145). -/
def noiseSync (b : Bool) (n : Noise) : Noise :=
  if b then { n with sync := true, counter := 0 } else { n with sync := false }

/-- `noiseBit(j)` (R146, 10_state.md R25). -/
def noiseBit (n : Noise) : Bool := n.reg.getLsbD 0

/-- `noiseTick(j)` on the device. -/
def State.noiseTickAt (j : Gen) (s : State) : State :=
  s.setNoise j
    (noiseTick s.thresh (noiseIncrement s.params s.cfg.clockHz (s.noiseAt j).mode) (s.noiseAt j))

/-- Both sources set, as WD_NOISEMODE does (R147). -/
def State.setSources (modeA modeB : BitVec 2) (s : State) : State :=
  { s with noise := ⟨setSource modeA s.noise.a, setSource modeB s.noise.b⟩ }

/-- WD_NOISEMODE (R147). -/
def execWdNoiseMode (modeA modeB : BitVec 2) (s : State) : Result := .next (s.setSources modeA modeB)

end Sys2Proof.Machine
end

