-- ==== Sys2Proof/Machine/Frequency.lean ====
section
/-! DEFINITION. The frequency generators (41_frequency_generator.md): the buffered writes, the phase
accumulator with its trigger, and the opcodes WD_FREQ0..5 and WD_OCT01, WD_OCT23, WD_OCT45. `rom` is
`ROM_FREQ` at the device's parameters and clock rate. -/

namespace Sys2Proof.Machine

/-- `add <- ROM_FREQ(curOct, curOff)`. -/
def oscReload (rom : BitVec 3 → Byte → Nat) (o : Osc) : Osc := { o with add := rom o.curOct o.curOff }

/-- `setOffset(i, v)` (R102). -/
def oscSetOffset (rom : BitVec 3 → Byte → Nat) (v : Byte) (o : Osc) : Osc :=
  if o.sync then oscReload rom { o with nextOff := v, curOff := v }
  else flagOffset { o with nextOff := v }

/-- `setOctave(i, v)` (R103). -/
def oscSetOctave (rom : BitVec 3 → Byte → Nat) (v : BitVec 3) (o : Osc) : Osc :=
  if o.sync then oscReload rom { o with nextOct := v, curOct := v }
  else flagOctave { o with nextOct := v }

/-- `applyPending(i)` (R104). -/
def oscApplyPending (rom : BitVec 3 → Byte → Nat) (o : Osc) : Osc :=
  let o := { o with curOct := o.nextOct, octWritten := false }
  oscReload rom
    (if o.ignoreOffset then { o with ignoreOffset := false }
     else { o with curOff := o.nextOff, newData := false })

/-- `oscSync(i, b)` (R105); the level is not written. -/
def oscSync (rom : BitVec 3 → Byte → Nat) (b : Bool) (o : Osc) : Osc :=
  let o := { o with sync := b }
  if b then
    oscReload rom (clearFlags { o with counter := 0, curOct := o.nextOct, curOff := o.nextOff })
  else o

/-- The first two steps of `crossing(i)` (R107): subtract the threshold and flip the level. -/
def oscFlip (th : Nat) (o : Osc) : Osc := { o with counter := o.counter - th, level := o.level.flip }

/-- `if newData: applyPending(i)`, the last step of `crossing(i)` (R107). -/
def oscApplyIfNew (rom : BitVec 3 → Byte → Nat) (o : Osc) : Osc :=
  if o.newData then oscApplyPending rom o else o

/-- `fire TRIG(i)` (R108, 10_state.md R21). -/
def State.fireTrig (i : Chan) (s : State) : State :=
  match i with
  | 0 => s.setNoise 0 (noiseTrigger (s.noiseAt 0))
  | 1 => s.setEnv 0 (internalClock s.params (s.envAt 0))
  | 2 => s
  | 3 => s.setNoise 1 (noiseTrigger (s.noiseAt 1))
  | 4 => s.setEnv 1 (internalClock s.params (s.envAt 1))
  | 5 => s

/-- `crossing(i)` (R107): the counter and level, then the trigger, then the pending values. -/
def State.crossing (i : Chan) (s : State) : State :=
  let s := s.setOsc i (oscFlip s.thresh (s.oscAt i))
  let s := s.fireTrig i
  s.setOsc i (oscApplyIfNew s.rom (s.oscAt i))

/-- The loop of `oscTick` (R106): while the counter is at least the threshold, one crossing. -/
def State.crossings (i : Chan) (s : State) : State :=
  whileDo ((s.oscAt i).counter / s.thresh) (fun t => decide (t.thresh ≤ (t.oscAt i).counter))
    (State.crossing i) s

/-- `oscTick(i)` (R106); its returned level is `level` in the state it leaves. -/
def State.oscTick (i : Chan) (s : State) : State :=
  if (s.oscAt i).sync then s
  else State.crossings i
    (s.setOsc i { s.oscAt i with counter := (s.oscAt i).counter + (s.oscAt i).add })

/-- `setOffset(i, v)` on the device. -/
def State.setOffset (i : Chan) (v : Byte) (s : State) : State :=
  s.setOsc i (oscSetOffset s.rom v (s.oscAt i))

/-- `setOctave(i, v)` on the device. -/
def State.setOctave (i : Chan) (v : BitVec 3) (s : State) : State :=
  s.setOsc i (oscSetOctave s.rom v (s.oscAt i))

/-- `setOctave(i, u); setOctave(j, v)` (R116 to R118). -/
def State.setOctaves (i j : Chan) (u v : BitVec 3) (s : State) : State :=
  (s.setOctave i u).setOctave j v

/-- WD_FREQ0 (R110). -/
def execWdFreq0 (offset : Byte) (s : State) : Result := .next (s.setOffset 0 offset)

/-- WD_FREQ1 (R111). -/
def execWdFreq1 (offset : Byte) (s : State) : Result := .next (s.setOffset 1 offset)

/-- WD_FREQ2 (R112). -/
def execWdFreq2 (offset : Byte) (s : State) : Result := .next (s.setOffset 2 offset)

/-- WD_FREQ3 (R113). -/
def execWdFreq3 (offset : Byte) (s : State) : Result := .next (s.setOffset 3 offset)

/-- WD_FREQ4 (R114). -/
def execWdFreq4 (offset : Byte) (s : State) : Result := .next (s.setOffset 4 offset)

/-- WD_FREQ5 (R115). -/
def execWdFreq5 (offset : Byte) (s : State) : Result := .next (s.setOffset 5 offset)

/-- WD_OCT01 (R116). -/
def execWdOct01 (octA octB : BitVec 3) (s : State) : Result := .next (s.setOctaves 0 1 octA octB)

/-- WD_OCT23 (R117). -/
def execWdOct23 (octA octB : BitVec 3) (s : State) : Result := .next (s.setOctaves 2 3 octA octB)

/-- WD_OCT45 (R118). -/
def execWdOct45 (octA octB : BitVec 3) (s : State) : Result := .next (s.setOctaves 4 5 octA octB)

end Sys2Proof.Machine
end

