-- ==== Sys2Proof/Machine/Amplifier.lean ====
section
/-! DEFINITION. The amplifiers and the stereo mixer (44_amplifier_mixer.md), and the opcodes WD_AMP0..5,
WD_TONEEN and WD_NOISEEN. -/

namespace Sys2Proof.Machine

/-- `INTER(m, t, n)` (R202, 90_conflicts.md C1); the last arm is the mode 3. -/
def interOf (m : BitVec 2) (t : Level) (n : Bool) : Fin 3 :=
  match m.toNat with
  | 0 => 0
  | 1 => match t with
    | .low => 0
    | .high => 2
  | 2 => if n then 2 else 0
  | _ => match t with
    | .low => 0
    | .high => if n then 1 else 2

/-- `ampTick(i)` (R200): the oscillator is ticked first, then the noise bit is read. -/
def State.ampTick (i : Chan) (s : State) : State :=
  let s := s.oscTick i
  s.setAmp i
    { s.ampAt i with
      inter := interOf (mixMode (s.ampAt i)) (s.oscAt i).level (noiseBit (s.noiseAt (noiseOf i))) }

/-- The amplitudes of both sides before the intermediate scales them: the envelope path of R205 when the
attached envelope is active, else the plain path of R206. -/
def ampAmplitudes (p : Params) (a : Amp) : Option Env → Nat × Nat
  | some e =>
    if envActive e then (envAmp p a.volL (envLeft p e) e.res3, envAmp p a.volR (envRight p e) e.res3)
    else (a.volL.toNat, a.volR.toNat)
  | none => (a.volL.toNat, a.volR.toNat)

/-- `ampOut(i)` (R203): left and right, zero when muted or synced (R204). -/
def State.ampOut (i : Chan) (s : State) : Nat × Nat :=
  if (s.ampAt i).mute || (s.ampAt i).sync then (0, 0)
  else
    let v := ampAmplitudes s.params (s.ampAt i) ((envOf i).map s.envAt)
    (v.1 * (s.ampAt i).inter.val, v.2 * (s.ampAt i).inter.val)

/-- `setAmpLevel(i, b)` (R207), with the nibbles of b. -/
def State.setAmpLevel (i : Chan) (volL volR : BitVec 4) (s : State) : State :=
  s.setAmp i { s.ampAt i with volL := volL, volR := volR }

/-- `setToneMixer(i, x)` (R208). -/
def setToneMixer (x : Bool) (a : Amp) : Amp := { a with toneEn := x }

/-- `setNoiseMixer(i, x)` (R208). -/
def setNoiseMixer (x : Bool) (a : Amp) : Amp := { a with noiseEn := x }

/-- `for i in 0..5: setToneMixer(i, t[i])` (R216). -/
def State.setToneMixers (t : BitVec 6) (s : State) : State :=
  { s with amp := Six.ofFn (fun i => setToneMixer (t.getLsbD i.val) (s.ampAt i)) }

/-- `for i in 0..5: setNoiseMixer(i, n[i])` (R217). -/
def State.setNoiseMixers (n : BitVec 6) (s : State) : State :=
  { s with amp := Six.ofFn (fun i => setNoiseMixer (n.getLsbD i.val) (s.ampAt i)) }

/-- WD_AMP0 (R210). -/
def execWdAmp0 (volL volR : BitVec 4) (s : State) : Result := .next (s.setAmpLevel 0 volL volR)

/-- WD_AMP1 (R211). -/
def execWdAmp1 (volL volR : BitVec 4) (s : State) : Result := .next (s.setAmpLevel 1 volL volR)

/-- WD_AMP2 (R212). -/
def execWdAmp2 (volL volR : BitVec 4) (s : State) : Result := .next (s.setAmpLevel 2 volL volR)

/-- WD_AMP3 (R213). -/
def execWdAmp3 (volL volR : BitVec 4) (s : State) : Result := .next (s.setAmpLevel 3 volL volR)

/-- WD_AMP4 (R214). -/
def execWdAmp4 (volL volR : BitVec 4) (s : State) : Result := .next (s.setAmpLevel 4 volL volR)

/-- WD_AMP5 (R215). -/
def execWdAmp5 (volL volR : BitVec 4) (s : State) : Result := .next (s.setAmpLevel 5 volL volR)

/-- WD_TONEEN (R216). -/
def execWdToneEn (t : BitVec 6) (s : State) : Result := .next (s.setToneMixers t)

/-- WD_NOISEEN (R217). -/
def execWdNoiseEn (n : BitVec 6) (s : State) : Result := .next (s.setNoiseMixers n)

end Sys2Proof.Machine
end

