-- ==== Sys2Proof/Machine/Bus.lean ====
section
/-! DEFINITION. The bus (45_device_pipeline.md R230 to R233, R260 to R270): WA, WD_CTRL, the data writes
to unused registers, and `RegWrite`, the data write by register address that CLEAR is written with. -/

namespace Sys2Proof.Machine

/-- `externalClock(j)` on the device (43_envelope_generator.md R169). -/
def State.externalClockAt (j : Gen) (s : State) : State := s.setEnv j (externalClock s.params (s.envAt j))

/-- `WA(reg)` (R230): the latch first, then the external clock of register 24 or 25. -/
def State.addressWrite (reg : Byte) (s : State) : State :=
  let s := { s with latch := regOfByte reg }
  if s.latch = 24 then s.externalClockAt 0
  else if s.latch = 25 then s.externalClockAt 1
  else s

/-- WA (R230). -/
def execWa (reg : Byte) (s : State) : Result := .next (s.addressWrite reg)

/-- `WD_CTRL` (R233): mute and sync copies, oscillator and noise sync; the envelopes are not synced
(90_conflicts.md C4). -/
def State.globalControl (en sy : Bool) (s : State) : State :=
  { s with
    enable := en
    gsync := sy
    amp := s.amp.map (fun a => ampSync sy (ampMute (!en) a))
    osc := s.osc.map (oscSync s.rom sy)
    noise := s.noise.map (noiseSync sy) }

/-- WD_CTRL (R233). -/
def execWdCtrl (en sy : Bool) (s : State) : Result := .next (s.globalControl en sy)

/-- WD_NOP_6 (R260): no effect. -/
def execWdNop6 (s : State) : Result := .next s

/-- WD_NOP_7 (R261): no effect. -/
def execWdNop7 (s : State) : Result := .next s

/-- WD_NOP_14 (R262): no effect. -/
def execWdNop14 (s : State) : Result := .next s

/-- WD_NOP_15 (R263): no effect. -/
def execWdNop15 (s : State) : Result := .next s

/-- WD_NOP_19 (R264): no effect. -/
def execWdNop19 (s : State) : Result := .next s

/-- WD_NOP_23 (R265): no effect. -/
def execWdNop23 (s : State) : Result := .next s

/-- WD_NOP_26 (R266): no effect. -/
def execWdNop26 (s : State) : Result := .next s

/-- WD_NOP_27 (R267): no effect. -/
def execWdNop27 (s : State) : Result := .next s

/-- WD_NOP_29 (R268): no effect. -/
def execWdNop29 (s : State) : Result := .next s

/-- WD_NOP_30 (R269): no effect. -/
def execWdNop30 (s : State) : Result := .next s

/-- WD_NOP_31 (R270): no effect. -/
def execWdNop31 (s : State) : Result := .next s

/-- `RegWrite(a, d)` (R231): the data write of `d` to register `a`. The last arm is the eleven unused
registers (R232). -/
def State.regWrite (a : BitVec 5) (d : Byte) (s : State) : State :=
  match a.toNat with
  | 0 => s.setAmpLevel 0 (lowNibble d) (highNibble d)
  | 1 => s.setAmpLevel 1 (lowNibble d) (highNibble d)
  | 2 => s.setAmpLevel 2 (lowNibble d) (highNibble d)
  | 3 => s.setAmpLevel 3 (lowNibble d) (highNibble d)
  | 4 => s.setAmpLevel 4 (lowNibble d) (highNibble d)
  | 5 => s.setAmpLevel 5 (lowNibble d) (highNibble d)
  | 8 => s.setOffset 0 d
  | 9 => s.setOffset 1 d
  | 10 => s.setOffset 2 d
  | 11 => s.setOffset 3 d
  | 12 => s.setOffset 4 d
  | 13 => s.setOffset 5 d
  | 16 => s.setOctaves 0 1 (lowOctave d) (highOctave d)
  | 17 => s.setOctaves 2 3 (lowOctave d) (highOctave d)
  | 18 => s.setOctaves 4 5 (lowOctave d) (highOctave d)
  | 20 => s.setToneMixers (channelBits d)
  | 21 => s.setNoiseMixers (channelBits d)
  | 22 => s.setSources (lowMode d) (highMode d)
  | 24 => s.setControl 0 d
  | 25 => s.setControl 1 d
  | 28 => s.globalControl (bitOf d 0) (bitOf d 1)
  | _ => s

end Sys2Proof.Machine
end

