-- ==== Sys2Proof/Machine/Pipeline.lean ====
section
/-! DEFINITION. The sample pipeline (45_device_pipeline.md R240 to R245): sub-ticks, averaging, gain,
highpass filter, conversion; SAMPLE and GEN. -/

namespace Sys2Proof.Machine

/-- A SAMPLE under way: the device and the two sums, which are no architectural state (R240). -/
structure Mix where
  /-- The device. -/
  st : State
  /-- `sumL`. -/
  sumL : Nat
  /-- `sumR`. -/
  sumR : Nat
  deriving DecidableEq, Repr

/-- One round of `subTick`'s loop (R240): tick amplifier i, then add its output. -/
def mixChannel (i : Chan) (m : Mix) : Mix :=
  let s := m.st.ampTick i
  { st := s, sumL := m.sumL + (s.ampOut i).1, sumR := m.sumR + (s.ampOut i).2 }

/-- Both noise ticks (R240). -/
def State.noiseTicks (s : State) : State := (s.noiseTickAt 0).noiseTickAt 1

/-- `subTick()` (R240). -/
def subTick (m : Mix) : Mix := channels.foldl (fun m i => mixChannel i m) { m with st := m.st.noiseTicks }

/-- The sub-ticks of one SAMPLE (R241). -/
def State.subTicks (s : State) : Mix := iter (2 ^ s.cfg.oversample) subTick { st := s, sumL := 0, sumR := 0 }

/-- Averaging and gain (R241, R242): the pre-filter value x of a side's sum. -/
def preFilter (p : Params) (c : Cfg) (sum : Nat) : Nat := (sum >>> c.oversample) * p.gain

/-- `hpf(x, z)` (R243): y and the new z; y uses the old z. -/
def hpf (p : Params) (x : Nat) (z : Int) : Int × Int :=
  if p.hpfEnable then
    ((x : Int) - asr z 16, asr ((p.hpfA : Int) * (x : Int) * (2 ^ 16 : Nat) + (p.hpfB : Int) * z) 16)
  else ((x : Int), z)

/-- The four bytes of a frame (R244): left then right, each low byte first. -/
def frameBytes (f : Frame) : List Byte :=
  [f.left.extractLsb' 0 8, f.left.extractLsb' 8 8, f.right.extractLsb' 0 8, f.right.extractLsb' 8 8]

/-- The output stream as bytes (20_memory.md R60, R67). -/
def State.outBytes (s : State) : List Byte := s.out.flatMap frameBytes

/-- The end of a SAMPLE (R241): filter both sides and emit the frame. -/
def finishSample (m : Mix) : State :=
  let l := hpf m.st.params (preFilter m.st.params m.st.cfg m.sumL) m.st.zL
  let r := hpf m.st.params (preFilter m.st.params m.st.cfg m.sumR) m.st.zR
  { m.st with
    zL := l.2
    zR := r.2
    out := m.st.out ++ [{ left := clamp16 l.1, right := clamp16 r.1 }] }

/-- `SAMPLE()` (R241). -/
def State.sampleOnce (s : State) : State := finishSample s.subTicks

/-- SAMPLE (R241). -/
def execSample (s : State) : Result := .next s.sampleOnce

/-- GEN (R245): `repeat count: SAMPLE()`, for every natural count (log 7). -/
def execGen (count : Nat) (s : State) : Result := .next (iter count State.sampleOnce s)

end Sys2Proof.Machine
end

