-- ==== Sys2Proof/Machine/HostOps.lean ====
section
/-! DEFINITION. CLEAR and the configuration operations (45_device_pipeline.md R250 to R255). -/

namespace Sys2Proof.Machine

/-- Every `add` recomputed (R250). -/
def State.reloadAll (s : State) : State := { s with osc := s.osc.map (oscReload s.rom) }

/-- SET_CLOCK (R250). -/
def execSetClock (hz : Nat) (s : State) : Result :=
  if clockLegal hz then .next (State.reloadAll { s with cfg := { s.cfg with clockHz := hz } })
  else .refused .configOutOfRange

/-- SET_RATE (R251). -/
def execSetRate (hz : Nat) (s : State) : Result :=
  if rateLegal hz then .next { s with cfg := { s.cfg with sampleHz := hz } } else .refused .configOutOfRange

/-- SET_OVERSAMPLE (R252). -/
def execSetOversample (n : Nat) (s : State) : Result :=
  if oversampleLegal n then .next { s with cfg := { s.cfg with oversample := n } }
  else .refused .configOutOfRange

/-- `WA(a); RegWrite(a, d)`, the document's writeAddressData (30_encoding.md R91). -/
def State.writeAddressData (a d : Byte) (s : State) : State := (s.addressWrite a).regWrite (regOfByte a) d

/-- The register addresses CLEAR writes 0 to, in its order: 0..31 without 28 (R255). -/
def clearAddresses : List Byte :=
  [0, 1, 2, 3, 4, 5, 6, 7, 8, 9, 10, 11, 12, 13, 14, 15, 16, 17, 18, 19, 20, 21, 22, 23, 24, 25, 26, 27,
   29, 30, 31]

/-- `CLEAR()` (R255): 67 bus transactions, performed as one operation (20_memory.md R68, log 13). -/
def State.clearAll (s : State) : State :=
  let s := s.writeAddressData 28 2
  let s := clearAddresses.foldl (fun s a => s.writeAddressData a 0) s
  let s := s.writeAddressData 28 0
  s.addressWrite 0

/-- CLEAR (R255). -/
def execClear (s : State) : Result := .next s.clearAll

end Sys2Proof.Machine
end

