-- ==== Sys2Proof/Machine/Dispatch.lean ====
section
/-! DEFINITION. The meaning of every operation: one arm per row of spec/opcode_table.json. -/

namespace Sys2Proof.Machine

/-- What an operation does to the block. -/
def exec (i : Instr) (s : State) : Host.Outcome State Fault Refusal :=
  match i with
  | .wa reg => Sys2Proof.Machine.execWa reg s
  | .wdAmp0 volL volR => Sys2Proof.Machine.execWdAmp0 volL volR s
  | .wdAmp1 volL volR => Sys2Proof.Machine.execWdAmp1 volL volR s
  | .wdAmp2 volL volR => Sys2Proof.Machine.execWdAmp2 volL volR s
  | .wdAmp3 volL volR => Sys2Proof.Machine.execWdAmp3 volL volR s
  | .wdAmp4 volL volR => Sys2Proof.Machine.execWdAmp4 volL volR s
  | .wdAmp5 volL volR => Sys2Proof.Machine.execWdAmp5 volL volR s
  | .wdFreq0 offset => Sys2Proof.Machine.execWdFreq0 offset s
  | .wdFreq1 offset => Sys2Proof.Machine.execWdFreq1 offset s
  | .wdFreq2 offset => Sys2Proof.Machine.execWdFreq2 offset s
  | .wdFreq3 offset => Sys2Proof.Machine.execWdFreq3 offset s
  | .wdFreq4 offset => Sys2Proof.Machine.execWdFreq4 offset s
  | .wdFreq5 offset => Sys2Proof.Machine.execWdFreq5 offset s
  | .wdOct01 octA octB => Sys2Proof.Machine.execWdOct01 octA octB s
  | .wdOct23 octA octB => Sys2Proof.Machine.execWdOct23 octA octB s
  | .wdOct45 octA octB => Sys2Proof.Machine.execWdOct45 octA octB s
  | .wdToneEn t => Sys2Proof.Machine.execWdToneEn t s
  | .wdNoiseEn n => Sys2Proof.Machine.execWdNoiseEn n s
  | .wdNoiseMode modeA modeB => Sys2Proof.Machine.execWdNoiseMode modeA modeB s
  | .wdEnvA ctrl => Sys2Proof.Machine.execWdEnvA ctrl s
  | .wdEnvB ctrl => Sys2Proof.Machine.execWdEnvB ctrl s
  | .wdCtrl en sy => Sys2Proof.Machine.execWdCtrl en sy s
  | .wdNop6 => Sys2Proof.Machine.execWdNop6 s
  | .wdNop7 => Sys2Proof.Machine.execWdNop7 s
  | .wdNop14 => Sys2Proof.Machine.execWdNop14 s
  | .wdNop15 => Sys2Proof.Machine.execWdNop15 s
  | .wdNop19 => Sys2Proof.Machine.execWdNop19 s
  | .wdNop23 => Sys2Proof.Machine.execWdNop23 s
  | .wdNop26 => Sys2Proof.Machine.execWdNop26 s
  | .wdNop27 => Sys2Proof.Machine.execWdNop27 s
  | .wdNop29 => Sys2Proof.Machine.execWdNop29 s
  | .wdNop30 => Sys2Proof.Machine.execWdNop30 s
  | .wdNop31 => Sys2Proof.Machine.execWdNop31 s
  | .sample => Sys2Proof.Machine.execSample s
  | .gen count => Sys2Proof.Machine.execGen count s
  | .clear => Sys2Proof.Machine.execClear s
  | .setClock hz => Sys2Proof.Machine.execSetClock hz s
  | .setRate hz => Sys2Proof.Machine.execSetRate hz s
  | .setOversample n => Sys2Proof.Machine.execSetOversample n s

end Sys2Proof.Machine
end

