-- ==== Sys2Proof/Machine/Fetch.lean ====
section
/-! DEFINITION. Taking the host's next request (00_scope.md R5, 20_memory.md R68): its encoded form under
the current latch, the refusals of requests that are no operation (60_exceptions.md R281), and the
placing of a table word as the next request. -/

namespace Sys2Proof.Machine

/-- The encoded form of a request under a latch (30_encoding.md R81, R82); none for a read, which is no
operation of the block (20_memory.md R64). -/
def encodedOfRequest (latch : BitVec 5) : Request → Option Encoded
  | .bus w => some (.dk (busKey latch w))
  | .host op arg => some (.host op arg)
  | .read _ => none

/-- The refusal of a host record that is no operation. -/
def refusalOfDecode : DecodeError → Refusal
  | .reservedHostOp _ => .reservedHostOp

/-- The operation a request stands for under a latch, or why there is none. -/
def operationOf (latch : BitVec 5) (r : Request) : Except Refusal Instr :=
  match encodedOfRequest latch r with
  | none => .error .noReadPort
  | some e => match decode e with
    | .ok i => .ok i
    | .error err => .error (refusalOfDecode err)

/-- An encoded form placed as the host's next request; a key also places its latch, which is part of
it (30_encoding.md R81). -/
def placeEncoded (s : State) : Encoded → State
  | .dk key => { s with latch := keyLatch key, pending := .bus (keyBus key) :: s.pending }
  | .host op arg => { s with pending := .host op arg :: s.pending }

/-- A table word placed as the host's next request; a number that is no word of its length changes
nothing. -/
def placeTableWord (s : State) (nbits w : Nat) : State :=
  match encodedOfTableWord nbits w with
  | none => s
  | some e => placeEncoded s e

end Sys2Proof.Machine
end

