-- ==== Sys2Proof/Machine/Step.lean ====
section
/-! DEFINITION. One step: the host's next request is performed, to completion (20_memory.md R68). With no
request issued nothing happens (45_device_pipeline.md R247, log 1). -/

namespace Sys2Proof.Machine

/-- One step. -/
def step (s : State) : Host.Outcome State Fault Refusal :=
  match s.pending with
  | [] => .next s
  | r :: rest =>
    match operationOf s.latch r with
    | .error e => .refused e
    | .ok i => exec i { s with pending := rest }

/-- `s` with a table word as the host's next request (log 1, log 2). -/
def State.withFetchWord (s : State) (nbits w : Nat) : State := placeTableWord s nbits w

end Sys2Proof.Machine
end

