-- ==== Sys2Proof/Machine/Assembly.lean ====
section
/-! DEFINITION. The textual form of a transaction program (30_encoding.md R90), its pseudo-operations and
their expansions into requests (R91), and the printing of a bus word. Text has no semantics of its own
(92_eei_decisions.md D4): a line stands for the requests it expands to. -/

namespace Sys2Proof.Machine

/-- One line of a transaction program (R90, R91). -/
inductive AsmLine where
  /-- `wa <reg>`. -/
  | wa (reg : Byte)
  /-- `wd <byte>`. -/
  | wd (byte : Byte)
  /-- `wad <reg>, <byte>`, a pseudo-operation. -/
  | wad (reg byte : Byte)
  /-- `sample`. -/
  | sample
  /-- `gen <count>`. -/
  | gen (count : Nat)
  /-- `clear`. -/
  | clear
  /-- `setclock <hz>`. -/
  | setclock (hz : Nat)
  /-- `setrate <hz>`. -/
  | setrate (hz : Nat)
  /-- `setos <n>`. -/
  | setos (n : Nat)
  deriving DecidableEq, Repr

/-- The requests a line stands for: the encodings of R90, and R91's expansion of `wad`. -/
def AsmLine.requests : AsmLine → List Request
  | .wa reg => [.bus (addressWord reg)]
  | .wd byte => [.bus (dataWord byte)]
  | .wad reg byte => [.bus (addressWord reg), .bus (dataWord byte)]
  | .sample => [.host 0 0]
  | .gen count => [.host 1 count]
  | .clear => [.host 2 0]
  | .setclock hz => [.host 3 hz]
  | .setrate hz => [.host 4 hz]
  | .setos n => [.host 5 n]

/-- `clear` as a program: the 67 bus words of 45_device_pipeline.md R255 (30_encoding.md R91). -/
def clearProgram : List Request :=
  AsmLine.requests (.wad 28 2) ++ clearAddresses.flatMap (fun a => AsmLine.requests (.wad a 0))
    ++ AsmLine.requests (.wad 28 0) ++ AsmLine.requests (.wa 0)

/-- `gen <n>` as a program: `sample` n times (30_encoding.md R91). -/
def genProgram (n : Nat) : List Request := List.replicate n (.host 0 0)

/-! ### Reading a line -/

/-- The value of a digit in a base up to 16. -/
def digitValue (base : Nat) (c : Char) : Option Nat :=
  let v :=
    if '0' ≤ c ∧ c ≤ '9' then c.toNat - 48
    else if 'a' ≤ c ∧ c ≤ 'f' then c.toNat - 87
    else if 'A' ≤ c ∧ c ≤ 'F' then c.toNat - 55
    else 16
  if v < base then some v else none

/-- The number that digits denote, after `acc`. -/
def digitsValue (base : Nat) : Nat → List Char → Option Nat
  | acc, [] => some acc
  | acc, c :: cs =>
    match digitValue base c with
    | none => none
    | some v => digitsValue base (base * acc + v) cs

/-- A number: decimal, or hex with `0x` (R90). -/
def readNumber : List Char → Option Nat
  | [] => none
  | '0' :: 'x' :: c :: cs => digitsValue 16 0 (c :: cs)
  | c :: cs => digitsValue 10 0 (c :: cs)

/-- A number 0..255. -/
def readByte (w : List Char) : Option Byte :=
  match readNumber w with
  | none => none
  | some n => if n < 256 then some (BitVec.ofNat 8 n) else none

/-- The words of a line up to its comment; a comma is a word of its own. -/
def lineWords : List Char → List (List Char)
  | [] => [[]]
  | c :: cs =>
    if c = ';' then [[]]
    else
      match lineWords cs with
      | [] => [[c]]
      | w :: ws =>
        if c = ' ' ∨ c = '\t' ∨ c = '\r' then [] :: w :: ws
        else if c = ',' then [] :: [c] :: w :: ws
        else (c :: w) :: ws

/-- A line read: none when it is not in the form of R90, `some none` for a line with no operation. -/
def readLine (line : List Char) : Option (Option AsmLine) :=
  match (lineWords line).filter (fun w => decide (w ≠ [])) with
  | [] => some none
  | [['w', 'a'], r] => (readByte r).map (fun r => some (.wa r))
  | [['w', 'd'], d] => (readByte d).map (fun d => some (.wd d))
  | [['w', 'a', 'd'], r, [','], d] =>
    match readByte r, readByte d with
    | some r, some d => some (some (.wad r d))
    | _, _ => none
  | [['s', 'a', 'm', 'p', 'l', 'e']] => some (some .sample)
  | [['g', 'e', 'n'], n] => (readNumber n).map (fun n => some (.gen n))
  | [['c', 'l', 'e', 'a', 'r']] => some (some .clear)
  | [['s', 'e', 't', 'c', 'l', 'o', 'c', 'k'], n] => (readNumber n).map (fun n => some (.setclock n))
  | [['s', 'e', 't', 'r', 'a', 't', 'e'], n] => (readNumber n).map (fun n => some (.setrate n))
  | [['s', 'e', 't', 'o', 's'], n] => (readNumber n).map (fun n => some (.setos n))
  | _ => none

/-- The requests of a program's lines; none when a line is not in the form of R90. -/
def assemble : List (List Char) → Option (List Request)
  | [] => some []
  | l :: ls =>
    match readLine l, assemble ls with
    | some none, some rs => some rs
    | some (some a), some rs => some (a.requests ++ rs)
    | _, _ => none

/-! ### Printing a bus word -/

/-- A hex digit. -/
def hexDigit (n : BitVec 4) : String :=
  if n.toNat < 10 then String.singleton (Char.ofNat (48 + n.toNat))
  else String.singleton (Char.ofNat (55 + n.toNat))

/-- A byte as `0x` and two hex digits. -/
def hexByte (b : Byte) : String := "0x" ++ hexDigit (highNibble b) ++ hexDigit (lowNibble b)

/-- A bus word printed under a latch: a data write has a comment that names its opcode (R90). -/
def printBusWord (latch : BitVec 5) (w : BusWord) : String :=
  match decodeKey (busKey latch w) with
  | .wa reg => "wa " ++ hexByte reg
  | i => "wd " ++ hexByte (keyData (busKey latch w)) ++ " ; " ++ i.mnemonic

end Sys2Proof.Machine
end

