-- ==== Sys2Proof/Safety.lean ====
section
/-! DEFINITION. The terms the claims use: the invariants the spec gives the state (10_state.md R23, R27,
R29), what an operation leaves alone, and the families of operations by channel. The block has no fault
(60_exceptions.md R280), so a safe run is one that keeps the invariants and is not refused. -/

namespace Sys2Proof.Machine

/-! ### Invariants -/

/-- The oscillator invariants of 10_state.md R23 that every operation keeps. -/
abbrev State.oscInv (s : State) : Prop :=
  ∀ i : Chan,
    (s.oscAt i).add = s.rom (s.oscAt i).curOct (s.oscAt i).curOff ∧
    ((s.oscAt i).sync = true →
      (s.oscAt i).counter = 0 ∧ (s.oscAt i).newData = false ∧ (s.oscAt i).octWritten = false ∧
        (s.oscAt i).ignoreOffset = false) ∧
    ((s.oscAt i).ignoreOffset = true → (s.oscAt i).newData = true)

/-- What waits in an oscillator's buffer (41_frequency_generator.md R104): with no octave written the
pending octave is the one in use, and with nothing waiting the pending offset is too. -/
abbrev State.bufferInv (s : State) : Prop :=
  ∀ i : Chan,
    ((s.oscAt i).octWritten = false → (s.oscAt i).nextOct = (s.oscAt i).curOct) ∧
    ((s.oscAt i).newData = false →
      (s.oscAt i).nextOff = (s.oscAt i).curOff ∧ (s.oscAt i).octWritten = false)

/-- A synced noise generator's counter is held at 0 (42_noise_generator.md R142, R145). -/
abbrev State.noiseInv (s : State) : Prop :=
  ∀ j : Gen, (s.noiseAt j).sync = true → (s.noiseAt j).counter = 0

/-- The envelope invariants of 10_state.md R27. -/
abbrev State.envInv (s : State) : Prop :=
  ∀ j : Gen,
    (s.envAt j).phase.val < phaseCount (romEnv s.params (s.envAt j).waveform) ∧
    ((s.envAt j).enabled = false →
      (s.envAt j).ended = true ∧ (s.envAt j).ready = true ∧ (s.envAt j).pendValid = false ∧
        (s.envAt j).phase = 0) ∧
    ((s.envAt j).pendValid = true → (s.envAt j).enabled = true ∧ (s.envAt j).ready = false)

/-- The mute and sync copies agree with the device (10_state.md R29). -/
abbrev State.copyInv (s : State) : Prop :=
  (∀ i : Chan,
    (s.ampAt i).mute = !s.enable ∧ (s.ampAt i).sync = s.gsync ∧ (s.oscAt i).sync = s.gsync) ∧
  ∀ j : Gen, (s.noiseAt j).sync = s.gsync

/-- The configuration is legal (00_scope.md R6). -/
abbrev State.cfgInv (s : State) : Prop := cfgLegal s.cfg = true

/-- A highpass accumulator is at least 0 and at most its fixed point for the largest gained average, with
the quotient by `2^16 - HPF_B` multiplied out (45_device_pipeline.md R243). -/
abbrev accBounded (p : Params) (z : Int) : Prop :=
  0 ≤ z ∧ z * (65536 - (p.hpfB : Int)) ≤ 180 * (p.gain : Int) * (p.hpfA : Int) * 65536

/-- Both highpass accumulators are bounded, for every HPF_B that is legal (00_scope.md R6). -/
abbrev State.filterInv (s : State) : Prop :=
  s.params.hpfB ≤ 2 ^ 16 ∧ accBounded s.params s.zL ∧ accBounded s.params s.zR

/-- A highpass accumulator is between 0 and the largest gained average in units of 2^-16, the range
45_device_pipeline.md R243 gives for the default parameters. -/
abbrev accInRange (p : Params) (z : Int) : Prop := 0 ≤ z ∧ z ≤ 180 * (p.gain : Int) * 65536

/-- Both highpass accumulators are in that range, for coefficients that sum to at most 2^16 (log 10). -/
abbrev State.filterRange (s : State) : Prop :=
  s.params.hpfA + s.params.hpfB ≤ 2 ^ 16 ∧ accInRange s.params s.zL ∧ accInRange s.params s.zR

/-! ### What an operation leaves alone -/

/-- Every device-level field but the latch, the two enables and the filter is unchanged. -/
abbrev sameStream (s t : State) : Prop :=
  t.cfg = s.cfg ∧ t.params = s.params ∧ t.out = s.out ∧ t.pending = s.pending

/-- Every device-level field is unchanged. -/
abbrev sameDevice (s t : State) : Prop :=
  t.latch = s.latch ∧ t.enable = s.enable ∧ t.gsync = s.gsync ∧ t.zL = s.zL ∧ t.zR = s.zR ∧
    sameStream s t

/-- The sound generators of the block: what the sub-ticks advance apart from the amplifiers. -/
abbrev sameGenerators (s t : State) : Prop :=
  t.osc = s.osc ∧ t.noise = s.noise ∧ t.env = s.env ∧ t.cfg = s.cfg ∧ t.params = s.params

/-! ### Families of operations -/

/-- WD_AMP0..WD_AMP5 by channel. -/
def ampWrite (i : Chan) (volL volR : BitVec 4) : Instr :=
  match i with
  | 0 => .wdAmp0 volL volR
  | 1 => .wdAmp1 volL volR
  | 2 => .wdAmp2 volL volR
  | 3 => .wdAmp3 volL volR
  | 4 => .wdAmp4 volL volR
  | 5 => .wdAmp5 volL volR

/-- WD_FREQ0..WD_FREQ5 by oscillator. -/
def offsetWrite (i : Chan) (offset : Byte) : Instr :=
  match i with
  | 0 => .wdFreq0 offset
  | 1 => .wdFreq1 offset
  | 2 => .wdFreq2 offset
  | 3 => .wdFreq3 offset
  | 4 => .wdFreq4 offset
  | 5 => .wdFreq5 offset

/-- WD_OCT01, WD_OCT23, WD_OCT45 by pair: pair k is the oscillators 2k and 2k + 1. -/
def octaveWrite (k : Fin 3) (octA octB : BitVec 3) : Instr :=
  match k with
  | 0 => .wdOct01 octA octB
  | 1 => .wdOct23 octA octB
  | 2 => .wdOct45 octA octB

/-- The lower-numbered oscillator of pair k. -/
def pairLow (k : Fin 3) : Chan :=
  match k with
  | 0 => 0
  | 1 => 2
  | 2 => 4

/-- The higher-numbered oscillator of pair k. -/
def pairHigh (k : Fin 3) : Chan :=
  match k with
  | 0 => 1
  | 1 => 3
  | 2 => 5

/-- WD_ENVA and WD_ENVB by generator. -/
def envWrite (j : Gen) (ctrl : Byte) : Instr :=
  match j with
  | 0 => .wdEnvA ctrl
  | 1 => .wdEnvB ctrl

/-- The data writes to the eleven unused registers (45_device_pipeline.md R232). -/
def unusedWrites : List Instr :=
  [.wdNop6, .wdNop7, .wdNop14, .wdNop15, .wdNop19, .wdNop23, .wdNop26, .wdNop27, .wdNop29, .wdNop30, .wdNop31]

/-- The register addresses that are unused (10_state.md R36). -/
def unusedAddresses : List (BitVec 5) := [6, 7, 14, 15, 19, 23, 26, 27, 29, 30, 31]

/-- The oscillator whose trigger output drives noise generator j (10_state.md R21). -/
def noiseSource (j : Gen) : Chan := if j = 0 then 0 else 3

/-- The oscillator whose trigger output drives envelope generator j (10_state.md R21). -/
def envSource (j : Gen) : Chan := if j = 0 then 1 else 4

/-! ### Runs -/

/-- `n` steps, up to the first that does not answer a next state (45_device_pipeline.md R247). -/
def stepMany : Nat → State → Result
  | 0, s => .next s
  | n + 1, s =>
    match step s with
    | .next t => stepMany n t
    | .fault f => .fault f
    | .refused r => .refused r

end Sys2Proof.Machine
end

