-- ==== Sys2Proof/Certificates/Slice0/Obligations.lean ====
section
/-! DEFINITION. The statements about the block, each a numbered rule of the spec or derived from one. The
families `ampWrite`, `offsetWrite`, `octaveWrite`, `envWrite` and the invariants are in Safety.lean. -/

open Sys2Proof Sys2Proof.Machine

/-! ### Requests, decoding and steps -/

/-- When the host's next request is an operation, a step is that operation on the state without the request,
and the operation is well-formed but for a GEN count past R82's range, which runs too (log 7, DEDUCED). With no
request a step changes nothing: the model's choice, log 1. (R5, R33, R68; an empty request list is log 1.) -/
def Obligations.StepRunsTheDecodedOperation : Prop :=
  (∀ (s : State) (r : Request) (rest : List Request) (i : Instr),
    s.pending = r :: rest → operationOf s.latch r = .ok i →
      (i.wellFormed = true ∨ ∃ n, i = .gen n ∧ 2 ^ 32 ≤ n) ∧ step s = exec i { s with pending := rest }) ∧
  (∀ s : State, s.pending = [] → step s = .next s)

/-- Words written out from 30_encoding.md R80 to R83 decode to the operations they stand for. How a key or a
host record lies in a table word (the key in bits 13:0 of a two-byte word, a record's op in bits 3:0 with its
arg above) is the model's choice, log 2. (R80 to R83, R85, R88; the layout is log 2, DESIGN CHOICE.) -/
def Obligations.KnownWordsDecode : Prop :=
  decodeTableWord 16 0b00000100111000 = some (.wa 0x38) ∧
  decodeTableWord 16 0b00101001011010 = some (.wdAmp5 0xA 0x5) ∧
  decodeTableWord 16 0b01101010000001 = some (.wdFreq5 0x81) ∧
  decodeTableWord 16 0b10000001000011 = some (.wdOct01 3 4) ∧
  decodeTableWord 16 0b10100011000001 = some (.wdToneEn 0b000001) ∧
  decodeTableWord 16 0b10101000100100 = some (.wdNoiseEn 0b100100) ∧
  decodeTableWord 16 0b10110000110001 = some (.wdNoiseMode 1 3) ∧
  decodeTableWord 16 0b11001010110001 = some (.wdEnvB 0xB1) ∧
  decodeTableWord 16 0b11100000000010 = some (.wdCtrl false true) ∧
  decodeTableWord 16 0b11111011111111 = some .wdNop31 ∧
  decodeTableWord 8 0b0000 = some .sample ∧
  decodeTableWord 8 0b0101 = some (.setOversample 0) ∧
  decodeTableWord 8 0b0110 = none

/-- Decoding the encoding of any operation gives the operation, every operand at every value, whether or not a
GEN count is in R82's range (log 7). (R80 to R84; the choices of the encoder are log 2.) -/
def Obligations.DecodeOfEncodeIsTheOperation : Prop :=
  ∀ i : Instr, decode (encode i) = .ok i

/-- Every key matches exactly one of the 33 DK rows, whose mnemonic is that of the decoded operation, and a
host record is selected by its op among the 6 HOST rows, whatever its arg. (R82, R84 to R86; a GEN count past
R82's range is log 7.) -/
def Obligations.EveryWordSelectsOneTableRow : Prop :=
  (∀ k : Key, ∃ r : KeyRow,
    keyRows.filter (fun q => q.matchesKey k) = [r] ∧ (decodeKey k).mnemonic = r.mnemonic) ∧
  (∀ (op : BitVec 4) (arg : Nat) (i : Instr),
    decodeHost op arg = .ok i → (i.mnemonic, op) ∈ hostRows) ∧
  (∀ (m : String) (op : BitVec 4) (arg : Nat),
    (m, op) ∈ hostRows → ∃ i, decodeHost op arg = .ok i)

/-- Every bus word, and every HOST command with a legal op and argument, completes with a next state, taking
nothing but itself from the host's requests; and no step raises a fault. (R280; SAMPLE and CLEAR ignore arg,
R84; that a GEN count past R82's range completes too is the model's reading of R84 and R245, log 7, DEDUCED.) -/
def Obligations.EveryLegalRequestCompletes : Prop :=
  (∀ (s : State) (r : Request) (rest : List Request), s.pending = r :: rest →
    (∃ w, r = .bus w) ∨ (∃ n, r = .host 0 n) ∨ (∃ n, r = .host 2 n) ∨ (∃ n, r = .host 1 n) ∨
      (∃ hz, r = .host 3 hz ∧ 1 ≤ hz ∧ hz ≤ 2 ^ 25) ∨ (∃ hz, r = .host 4 hz ∧ 1 ≤ hz ∧ hz ≤ 2 ^ 20) ∨
      (∃ n, r = .host 5 n ∧ n ≤ 8) →
    ∃ t : State, step s = .next t ∧ t.pending = rest ∧ t.params = s.params) ∧
  (∀ (s : State) (f : Fault), step s ≠ .fault f)

/-- A data word runs the register write of the register the latch selects, and keeps the latch. (R231; that the
latch is kept is R89, an inference the spec marks as its own.) -/
def Obligations.DataWordRunsRegWriteOfTheLatch : Prop :=
  ∀ (s : State) (d : Byte) (rest : List Request), s.pending = .bus (dataWord d) :: rest →
    step s = .next (State.regWrite s.latch d { s with pending := rest }) ∧
    (State.regWrite s.latch d { s with pending := rest }).latch = s.latch

/-- The ignored bits of a data byte and of an address byte have no effect. Bit 6 of an envelope control byte
is kept in the buffered byte only, from which it is never read. (R86, the spec's decision D12.) -/
def Obligations.IgnoredBitsHaveNoEffect : Prop :=
  (∀ (l : BitVec 5) (d e : Byte), l = 16 ∨ l = 17 ∨ l = 18 → d &&& 0x77 = e &&& 0x77 →
    decodeData l d = decodeData l e) ∧
  (∀ (l : BitVec 5) (d e : Byte), l = 20 ∨ l = 21 → d &&& 0x3F = e &&& 0x3F →
    decodeData l d = decodeData l e) ∧
  (∀ d e : Byte, d &&& 0x33 = e &&& 0x33 → decodeData 22 d = decodeData 22 e) ∧
  (∀ d e : Byte, d &&& 0x03 = e &&& 0x03 → decodeData 28 d = decodeData 28 e) ∧
  (∀ (reg reg' : Byte) (s : State), reg &&& 0x1F = reg' &&& 0x1F → exec (.wa reg) s = exec (.wa reg') s) ∧
  (∀ (d e : Byte) (g : Env), d &&& 0xBF = e &&& 0xBF →
    envLoad d g = envLoad e g ∧
    { envSetControl d g with pendByte := 0 } = { envSetControl e g with pendByte := 0 })

/-- A host record with a reserved op is refused, and so is every read; a GEN record is performed whatever its
count, one past R82's range included (log 7, DEDUCED). (R64, R88, R281.) -/
def Obligations.RequestsThatAreNoOperationAreRefused : Prop :=
  (∀ (s : State) (op : BitVec 4) (arg : Nat) (rest : List Request), s.pending = .host op arg :: rest →
    6 ≤ op.toNat → step s = .refused .reservedHostOp) ∧
  (∀ (s : State) (what : ReadTarget) (rest : List Request), s.pending = .read what :: rest →
    step s = .refused .noReadPort) ∧
  (∀ (s : State) (count : Nat) (rest : List Request), s.pending = .host 1 count :: rest →
    step s = exec (.gen count) { s with pending := rest })

/-- A step is refused only for the spec's three reasons, and then the request is one the rule of that reason
names. (R281, R250 to R252, R88, R64.) -/
def Obligations.RefusalsHaveOnlyTheNamedReasons : Prop :=
  ∀ (s : State) (e : Refusal), step s = .refused e →
    (e = .noReadPort ∧ ∃ what rest, s.pending = .read what :: rest) ∨
    (e = .reservedHostOp ∧ ∃ op arg rest, s.pending = .host op arg :: rest ∧ 6 ≤ op.toNat) ∨
    (e = .configOutOfRange ∧ ∃ arg rest,
      (s.pending = .host 3 arg :: rest ∧ ¬ (1 ≤ arg ∧ arg ≤ 2 ^ 25)) ∨
      (s.pending = .host 4 arg :: rest ∧ ¬ (1 ≤ arg ∧ arg ≤ 2 ^ 20)) ∨
      (s.pending = .host 5 arg :: rest ∧ ¬ arg ≤ 8))

/-! ### Bus operations -/

/-- WA: the latch takes the low five bits; selecting 24 or 25 clocks envelope A or B when its clock is
external; nothing else changes. (R46, R61, R230.) -/
def Obligations.AddressWriteSetsLatchAndClocksEnvelope : Prop :=
  ∀ (reg : Byte) (s : State), ∃ t : State, exec (.wa reg) s = .next t ∧
    t.latch.toNat = reg.toNat % 32 ∧
    (∀ j : Gen, t.envAt j =
      if reg.toNat % 32 = 24 + j.val ∧ (s.envAt j).extClock = true then envClock s.params (s.envAt j)
      else s.envAt j) ∧
    t.osc = s.osc ∧ t.noise = s.noise ∧ t.amp = s.amp ∧ t.enable = s.enable ∧ t.gsync = s.gsync ∧
    t.zL = s.zL ∧ t.zR = s.zR ∧ sameStream s t

/-- WD_AMP0..5 set the two volumes of their channel and nothing else. (R207, R210 to R215.) -/
def Obligations.AmpWriteSetsTheTwoVolumes : Prop :=
  ∀ (i : Chan) (l r : BitVec 4) (s : State), ∃ t : State, exec (ampWrite i l r) s = .next t ∧
    t.ampAt i = { s.ampAt i with volL := l, volR := r } ∧
    (∀ k : Chan, k ≠ i → t.ampAt k = s.ampAt k) ∧
    t.osc = s.osc ∧ t.noise = s.noise ∧ t.env = s.env ∧ sameDevice s t

/-- WD_FREQ0..5: under sync the offset applies at once; outside sync it waits, one boundary more when an
octave waits already; a second write makes the first one unseen. (R102, R110 to R115.) -/
def Obligations.OffsetWriteWaitsOutsideSync : Prop :=
  ∀ (i : Chan) (v : Byte) (s : State), ∃ t : State, exec (offsetWrite i v) s = .next t ∧
    ((s.oscAt i).sync = true → t.oscAt i =
      { s.oscAt i with nextOff := v, curOff := v, add := s.rom (s.oscAt i).curOct v }) ∧
    ((s.oscAt i).sync = false → t.oscAt i =
      { s.oscAt i with
        nextOff := v
        newData := true
        ignoreOffset := if (s.oscAt i).octWritten then true else (s.oscAt i).ignoreOffset }) ∧
    (∀ k : Chan, k ≠ i → t.oscAt k = s.oscAt k) ∧
    t.noise = s.noise ∧ t.env = s.env ∧ t.amp = s.amp ∧ sameDevice s t ∧
    (∀ w : Byte, exec (offsetWrite i w) t = exec (offsetWrite i w) s)

/-- WD_OCT01, WD_OCT23, WD_OCT45: both octaves of the pair are written; under sync each applies at once,
outside sync each waits and is marked. (R103, R116 to R118.) -/
def Obligations.OctaveWriteMarksBothOscillators : Prop :=
  ∀ (k : Fin 3) (u v : BitVec 3) (s : State), ∃ t : State, exec (octaveWrite k u v) s = .next t ∧
    (∀ (i : Chan) (x : BitVec 3), (i = pairLow k ∧ x = u) ∨ (i = pairHigh k ∧ x = v) →
      ((s.oscAt i).sync = true → t.oscAt i =
        { s.oscAt i with nextOct := x, curOct := x, add := s.rom x (s.oscAt i).curOff }) ∧
      ((s.oscAt i).sync = false → t.oscAt i =
        { s.oscAt i with nextOct := x, newData := true, octWritten := true })) ∧
    (∀ i : Chan, i ≠ pairLow k → i ≠ pairHigh k → t.oscAt i = s.oscAt i) ∧
    t.noise = s.noise ∧ t.env = s.env ∧ t.amp = s.amp ∧ sameDevice s t

/-- WD_TONEEN and WD_NOISEEN set one mix bit of every channel and nothing else. (R208, R216, R217.) -/
def Obligations.MixerWritesSetOneBitOfEveryChannel : Prop :=
  ∀ (m : BitVec 6) (s : State),
    (∃ t : State, exec (.wdToneEn m) s = .next t ∧
      (∀ i : Chan, t.ampAt i = { s.ampAt i with toneEn := m.getLsbD i.val }) ∧
      t.osc = s.osc ∧ t.noise = s.noise ∧ t.env = s.env ∧ sameDevice s t) ∧
    (∃ t : State, exec (.wdNoiseEn m) s = .next t ∧
      (∀ i : Chan, t.ampAt i = { s.ampAt i with noiseEn := m.getLsbD i.val }) ∧
      t.osc = s.osc ∧ t.noise = s.noise ∧ t.env = s.env ∧ sameDevice s t)

/-- WD_NOISEMODE sets both source modes; counters and registers are kept. (R144, R147.) -/
def Obligations.NoiseModeWriteKeepsCounterAndRegister : Prop :=
  ∀ (a b : BitVec 2) (s : State), ∃ t : State, exec (.wdNoiseMode a b) s = .next t ∧
    t.noiseAt 0 = { s.noiseAt 0 with mode := a } ∧ t.noiseAt 1 = { s.noiseAt 1 with mode := b } ∧
    t.osc = s.osc ∧ t.env = s.env ∧ t.amp = s.amp ∧ sameDevice s t

/-- WD_ENVA and WD_ENVB: the disable, enable and buffer paths of a control write; the other generator and
everything else is kept. (R162, R164 to R167, R180, R181.) -/
def Obligations.EnvControlWriteTakesOneOfThreePaths : Prop :=
  ∀ (j : Gen) (b : Byte) (s : State), ∃ t : State, exec (envWrite j b) s = .next t ∧
    (b.getLsbD 7 = false → t.envAt j =
      { s.envAt j with
        enabled := false, invertRight := b.getLsbD 0, waveform := b.extractLsb' 1 3,
        res3 := b.getLsbD 4, extClock := b.getLsbD 5, ended := true, ready := true, phase := 0,
        pos := 0, pendValid := false }) ∧
    (b.getLsbD 7 = true → ((s.envAt j).enabled = false ∨ (s.envAt j).ready = true) → t.envAt j =
      { s.envAt j with
        enabled := true, invertRight := b.getLsbD 0, waveform := b.extractLsb' 1 3,
        res3 := b.getLsbD 4, extClock := b.getLsbD 5, phase := 0, pos := 0, ended := false,
        ready := false, pendValid := false }) ∧
    (b.getLsbD 7 = true → (s.envAt j).enabled = true → (s.envAt j).ready = false → t.envAt j =
      { s.envAt j with res3 := b.getLsbD 4, pendByte := b, pendValid := true }) ∧
    (∀ k : Gen, k ≠ j → t.envAt k = s.envAt k) ∧
    t.osc = s.osc ∧ t.noise = s.noise ∧ t.amp = s.amp ∧ sameDevice s t

/-- WD_CTRL: the enables, the mute and sync copies, and oscillator and noise sync: asserting it zeroes the
counters and applies what waits, levels and noise registers hold; envelopes are not touched. (R105, R145,
R208, R233.) -/
def Obligations.GlobalControlMutesAndSyncs : Prop :=
  ∀ (en sy : Bool) (s : State), ∃ t : State, exec (.wdCtrl en sy) s = .next t ∧
    t.enable = en ∧ t.gsync = sy ∧
    (∀ i : Chan, t.ampAt i = { s.ampAt i with mute := !en, sync := sy }) ∧
    (∀ i : Chan, t.oscAt i =
      if sy then
        { s.oscAt i with
          sync := true, counter := 0, curOct := (s.oscAt i).nextOct, curOff := (s.oscAt i).nextOff,
          newData := false, octWritten := false, ignoreOffset := false,
          add := s.rom (s.oscAt i).nextOct (s.oscAt i).nextOff }
      else { s.oscAt i with sync := false }) ∧
    (∀ j : Gen, t.noiseAt j =
      if sy then { s.noiseAt j with sync := true, counter := 0 } else { s.noiseAt j with sync := false }) ∧
    t.env = s.env ∧ t.latch = s.latch ∧ t.zL = s.zL ∧ t.zR = s.zR ∧ sameStream s t

/-- The data writes to the eleven unused registers change nothing, and an unused address decodes to one of
them whatever the byte. (R232, R260 to R270.) -/
def Obligations.UnusedRegisterWritesChangeNothing : Prop :=
  (∀ i ∈ unusedWrites, ∀ s : State, exec i s = .next s) ∧
  (∀ l ∈ unusedAddresses, ∀ d : Byte, decodeData l d ∈ unusedWrites)

/-- The writes to registers 0..5, 20, 21, 22 and 28 are idempotent. (R65, an inference the spec marks as its
own.) -/
def Obligations.PlainRegisterWritesAreIdempotent : Prop :=
  ∀ (i : Instr) (s t : State),
    (∃ c l r, i = ampWrite c l r) ∨ (∃ m, i = .wdToneEn m) ∨ (∃ m, i = .wdNoiseEn m) ∨
      (∃ a b, i = .wdNoiseMode a b) ∨ (∃ en sy, i = .wdCtrl en sy) →
    exec i s = .next t → exec i t = .next t

/-! ### Frequency generators -/

/-- The period table: the formula's entries, or the parameter table's entry 256 * octave + offset (0 past its
end, log 4); every entry is below 2^32 for a legal clock, with the formula or a table; at the default clock the
largest entry is that of octave 7, offset 255. (R100, whose entries are the spec's decision D11, log 5.) -/
def Obligations.PeriodTableEntriesAreBounded : Prop :=
  (∀ (p : Params) (hz : Nat) (oct : BitVec 3) (off : Byte),
    (p.freqRom = .formula → romFreq p hz oct off = 16 * hz * 2 ^ oct.toNat / (511 - off.toNat)) ∧
    (∀ entries : List (BitVec 32), p.freqRom = .table entries →
      romFreq p hz oct off = (entries.getD (256 * oct.toNat + off.toNat) 0).toNat)) ∧
  (∀ (p : Params) (hz : Nat) (oct : BitVec 3) (off : Byte), clockLegal hz = true →
    romFreq p hz oct off < 2 ^ 32) ∧
  (∀ (oct : BitVec 3) (off : Byte),
    romFreq defaultParams 8000000 oct off ≤ romFreq defaultParams 8000000 7 255) ∧
  romFreq defaultParams 8000000 7 255 = 64000000

/-- The threshold of a legal configuration is between 4096 and 2^40. (R31.) -/
def Obligations.ThresholdIsInRange : Prop :=
  ∀ c : Cfg, cfgLegal c = true →
    thresh c = c.sampleHz * 2 ^ c.oversample * 2 ^ 12 ∧ 4096 ≤ thresh c ∧ thresh c ≤ 2 ^ 40

/-- The closed form of one oscillator tick outside sync: `k` crossings, the counter's remainder, the level
flipped k times, the wired trigger fired k times, and the waiting values applied at most twice. A synced
oscillator's tick changes nothing at all. The two operations it names: waiting values are applied as R104 says,
and an internal clock is gated as R169 says. (R109, an inference the spec marks as its own, from R104, R106 to
R108; R104 and R169.) -/
def Obligations.OscillatorTickClosedForm : Prop :=
  (∀ (rom : BitVec 3 → Byte → Nat) (o : Osc), oscApplyIfNew rom o =
    if o.newData = false then o
    else if o.ignoreOffset = true then
      { o with
        curOct := o.nextOct, octWritten := false, ignoreOffset := false, add := rom o.nextOct o.curOff }
    else
      { o with
        curOct := o.nextOct, octWritten := false, curOff := o.nextOff, newData := false,
        add := rom o.nextOct o.nextOff }) ∧
  (∀ (p : Params) (e : Env), internalClock p e = if e.extClock = true then e else envClock p e) ∧
  (∀ (s : State) (i : Chan), (s.oscAt i).sync = true → State.oscTick i s = s) ∧
  ∀ (s : State) (i : Chan), (s.oscAt i).sync = false → 0 < s.thresh →
    ∃ k : Nat, k = ((s.oscAt i).counter + (s.oscAt i).add) / s.thresh ∧
      (State.oscTick i s).oscAt i =
        { iter (min k 2) (oscApplyIfNew s.rom) (s.oscAt i) with
          counter := ((s.oscAt i).counter + (s.oscAt i).add) % s.thresh
          level := if k % 2 = 0 then (s.oscAt i).level else (s.oscAt i).level.flip } ∧
      (∀ c : Chan, c ≠ i → (State.oscTick i s).oscAt c = s.oscAt c) ∧
      (∀ j : Gen, (State.oscTick i s).noiseAt j =
        if noiseSource j = i then iter k noiseTrigger (s.noiseAt j) else s.noiseAt j) ∧
      (∀ j : Gen, (State.oscTick i s).envAt j =
        if envSource j = i then iter k (internalClock s.params) (s.envAt j) else s.envAt j) ∧
      (State.oscTick i s).amp = s.amp ∧ sameDevice s (State.oscTick i s)

/-- Octave then offset: the first boundary applies the octave with the old offset, the second the offset.
Offset then octave: the first boundary applies both. (R119, R304, inferences the spec marks as its own.) -/
def Obligations.OctaveThenOffsetDefersTheOffset : Prop :=
  ∀ (k : Fin 3) (u v : BitVec 3) (w : Byte) (s a b c d : State) (i : Chan) (x : BitVec 3),
    (i = pairLow k ∧ x = u) ∨ (i = pairHigh k ∧ x = v) →
    (s.oscAt i).sync = false → (s.oscAt i).newData = false → (s.oscAt i).octWritten = false →
    (s.oscAt i).ignoreOffset = false →
    exec (octaveWrite k u v) s = .next a → exec (offsetWrite i w) a = .next b →
    exec (offsetWrite i w) s = .next c → exec (octaveWrite k u v) c = .next d →
    ((State.crossing i b).oscAt i).curOct = x ∧
    ((State.crossing i b).oscAt i).curOff = (s.oscAt i).curOff ∧
    ((State.crossing i b).oscAt i).add = s.rom x (s.oscAt i).curOff ∧
    ((State.crossing i (State.crossing i b)).oscAt i).curOct = x ∧
    ((State.crossing i (State.crossing i b)).oscAt i).curOff = w ∧
    ((State.crossing i (State.crossing i b)).oscAt i).add = s.rom x w ∧
    ((State.crossing i d).oscAt i).curOct = x ∧
    ((State.crossing i d).oscAt i).curOff = w ∧
    ((State.crossing i d).oscAt i).add = s.rom x w

/-! ### Noise generators -/

/-- One shift: left by one bit modulo 2^32, with the exclusive or of bits 30 and 2 as the new bit 0. The value
0 stays 0, and only 0 and 0x80000000 lead to it. The default seed leads to 0x22222222. A trigger shifts in
mode 3 outside sync, and does nothing otherwise. (R141, R143.) -/
def Obligations.NoiseShiftFeedsBackTwoTaps : Prop :=
  ∀ n : Noise,
    (noiseShift n).reg.toNat =
      2 * n.reg.toNat % 2 ^ 32 + (if n.reg.getLsbD 30 = n.reg.getLsbD 2 then 0 else 1) ∧
    (noiseShift n).counter = n.counter ∧ (noiseShift n).mode = n.mode ∧ (noiseShift n).sync = n.sync ∧
    ((noiseShift n).reg = 0 ↔ n.reg = 0 ∨ n.reg = 0x80000000) ∧
    (n.reg = 0 → noiseBit (noiseShift n) = false) ∧
    (n.reg = 0x11111111 → (noiseShift n).reg = 0x22222222) ∧ defaultParams.noiseSeed = 0x11111111 ∧
    (n.mode = 3 → n.sync = false → noiseTrigger n = noiseShift n) ∧
    (n.mode ≠ 3 ∨ n.sync = true → noiseTrigger n = n)

/-- The rate increment of modes 0 to 2, by the formula or the parameter's entry, and the closed form of a noise
tick: in those modes outside sync the counter takes its remainder and the register shifts once per threshold; in
mode 3 or under sync nothing changes; everything else is kept. (R140, whose formula is the spec's decision D16,
log 5; R142.) -/
def Obligations.NoiseTickClosedForm : Prop :=
  (∀ (p : Params) (hz : Nat) (m : BitVec 2), m ≠ 3 →
    (p.noiseAdd = .formula → noiseIncrement p hz m = 16 * hz / 2 ^ m.toNat) ∧
    (∀ add0 add1 add2 : BitVec 32, p.noiseAdd = .table add0 add1 add2 →
      (m = 0 → noiseIncrement p hz m = add0.toNat) ∧ (m = 1 → noiseIncrement p hz m = add1.toNat) ∧
      (m = 2 → noiseIncrement p hz m = add2.toNat))) ∧
  (noiseIncrement defaultParams 8000000 0 = 128000000 ∧ noiseIncrement defaultParams 8000000 1 = 64000000 ∧
    noiseIncrement defaultParams 8000000 2 = 32000000) ∧
  ∀ (s : State) (j : Gen), 0 < s.thresh →
    ∃ c : Nat, c = (s.noiseAt j).counter +
        noiseIncrement s.params s.cfg.clockHz (s.noiseAt j).mode ∧
      (State.noiseTickAt j s).noiseAt j =
        (if (s.noiseAt j).sync = true ∨ (s.noiseAt j).mode = 3 then s.noiseAt j
         else { iter (c / s.thresh) noiseShift (s.noiseAt j) with counter := c % s.thresh }) ∧
      (∀ k : Gen, k ≠ j → (State.noiseTickAt j s).noiseAt k = s.noiseAt k) ∧
      (State.noiseTickAt j s).osc = s.osc ∧ (State.noiseTickAt j s).env = s.env ∧
      (State.noiseTickAt j s).amp = s.amp ∧ sameDevice s (State.noiseTickAt j s)

/-! ### Envelope generators -/

/-- The clock of an envelope generator, case by case. In a state no run reaches, where it is ready while a
byte is buffered, the byte is loaded at once. (R168.) -/
def Obligations.EnvelopeClockCases : Prop :=
  ∀ (p : Params) (e : Env),
    (e.enabled = false ∨ e.ended = true → envClock p e = e) ∧
    (e.enabled = true → e.ended = false → e.ready = true → e.pendValid = true →
      envClock p e =
        { e with
          invertRight := e.pendByte.getLsbD 0, waveform := e.pendByte.extractLsb' 1 3,
          res3 := e.pendByte.getLsbD 4, extClock := e.pendByte.getLsbD 5, phase := 0, pos := 0,
          ended := false, ready := false, pendValid := false }) ∧
    (e.enabled = true → e.ended = false → (e.pendValid = true → e.ready = false) →
      (e.pos.toNat + stepSize e.res3 < 16 →
        envClock p e = { e with pos := BitVec.ofNat 4 (e.pos.toNat + stepSize e.res3) }) ∧
      (16 ≤ e.pos.toNat + stepSize e.res3 →
        (e.phase.val + 1 < phaseCount (romEnv p e.waveform) →
          envClock p e =
            { e with pos := BitVec.ofNat 4 (e.pos.toNat + stepSize e.res3 - 16), phase := 1 }) ∧
        (phaseCount (romEnv p e.waveform) ≤ e.phase.val + 1 → e.pendValid = false →
          envClock p e =
            { e with
              pos := BitVec.ofNat 4 (e.pos.toNat + stepSize e.res3 - 16), phase := 0, ready := true,
              ended := !(romEnv p e.waveform).loop }) ∧
        (phaseCount (romEnv p e.waveform) ≤ e.phase.val + 1 → e.pendValid = true →
          envClock p e =
            { e with
              invertRight := e.pendByte.getLsbD 0, waveform := e.pendByte.extractLsb' 1 3,
              res3 := e.pendByte.getLsbD 4, extClock := e.pendByte.getLsbD 5, phase := 0, pos := 0,
              ended := false, ready := false, pendValid := false })))

/-- From the start of a running contour, with no byte buffered, the cycle ends after exactly `phases * 16 /
STEP` clocks; a contour that does not loop is then Ended, with level 0 from there on. With the default ROM,
waveform 2 in 4-bit resolution gives the level 15 - k after k clocks. (R173, an inference the spec marks as
its own.) -/
def Obligations.EnvelopeCycleLength : Prop :=
  ∀ (p : Params) (e : Env), e.enabled = true → e.ended = false → e.pendValid = false → e.phase = 0 →
    e.pos = 0 →
    ∃ n : Nat, n = phaseCount (romEnv p e.waveform) * 16 / stepSize e.res3 ∧
      (∀ k : Nat, k < n →
        (iter k (envClock p) e).ended = false ∧ (iter k (envClock p) e).ready = e.ready ∧
        16 * (iter k (envClock p) e).phase.val + (iter k (envClock p) e).pos.toNat = k * stepSize e.res3) ∧
      (iter n (envClock p) e).ready = true ∧ (iter n (envClock p) e).phase = 0 ∧
      (iter n (envClock p) e).pos = 0 ∧
      (iter n (envClock p) e).ended = (!(romEnv p e.waveform).loop) ∧
      ((romEnv p e.waveform).loop = false → ∀ k : Nat, n ≤ k →
        (iter k (envClock p) e).ended = true ∧ envLeft p (iter k (envClock p) e) = 0 ∧
        envRight p (iter k (envClock p) e) = 0) ∧
      (p.envRom = defaultEnvRom → e.waveform = 2 → e.res3 = false → ∀ k : Nat, k ≤ 15 →
        envLeft p (iter k (envClock p) e) = 15 - k)

/-- The levels: both 0 when disabled or ended; else the left is the contour's entry, and the right mirrors it,
or with invert set makes the two sum to the maximum level. (R161, R170, R171; the sum is stated for contours
within their maximum level, log 9.) -/
def Obligations.EnvelopeLevelsMirrorOrInvert : Prop :=
  ∀ (p : Params) (e : Env),
    (e.enabled = false ∨ e.ended = true → envLeft p e = 0 ∧ envRight p e = 0) ∧
    (e.enabled = true → e.ended = false →
      envLeft p e = contourLevel (romEnv p e.waveform) e.res3 e.phase e.pos ∧ envLeft p e ≤ 15 ∧
      (e.invertRight = false → envRight p e = envLeft p e) ∧
      (e.invertRight = true → paramsLegal p = true →
        envLeft p e + envRight p e = if e.res3 then 14 else 15))

/-- The default contours: the phase counts and loop flags of the eight; zero, maximum, decay, attack, and the
two-phase ones, by position; the 3-bit level is the 4-bit one with bit 0 cleared; and the default amplitude map, a product with the half-volume nibble, at
most 14. The contents of both tables are the spec's assumption (log 5). (R160, R205.) -/
def Obligations.DefaultEnvelopeTables : Prop :=
  (∀ (v : BitVec 4) (e : Nat) (res3 : Bool), e ≤ 15 →
    envAmp defaultParams v e res3 = 2 * (v.toNat / 2) * e / 15 ∧ envAmp defaultParams v e res3 ≤ 14) ∧
  (∀ w : BitVec 3,
    phaseCount (romEnv defaultParams w) = (if w = 4 ∨ w = 5 then 2 else 1) ∧
    ((romEnv defaultParams w).loop = true ↔ w = 1 ∨ w = 3 ∨ w = 5 ∨ w = 7)) ∧
  ∀ (q : BitVec 4) (res3 : Bool),
    (∀ w : BitVec 3, ∀ ph : Fin 2, contourLevel (romEnv defaultParams w) true ph q =
      contourLevel (romEnv defaultParams w) false ph q / 2 * 2) ∧
    contourLevel (romEnv defaultParams 0) res3 0 q = 0 ∧
    contourLevel (romEnv defaultParams 1) false 0 q = 15 ∧
    contourLevel (romEnv defaultParams 2) false 0 q = 15 - q.toNat ∧
    contourLevel (romEnv defaultParams 3) false 0 q = 15 - q.toNat ∧
    contourLevel (romEnv defaultParams 4) false 0 q = q.toNat ∧
    contourLevel (romEnv defaultParams 4) false 1 q = 15 - q.toNat ∧
    contourLevel (romEnv defaultParams 5) false 0 q = q.toNat ∧
    contourLevel (romEnv defaultParams 5) false 1 q = 15 - q.toNat ∧
    contourLevel (romEnv defaultParams 6) false 0 q = q.toNat ∧
    contourLevel (romEnv defaultParams 7) false 0 q = q.toNat

/-! ### Amplifiers -/

/-- The 0/1/2 intermediate as the document's formulas give it, mode by mode. (R202.) -/
def Obligations.IntermediateFollowsTheTruthTable : Prop :=
  ∀ (t : Level) (n : Bool),
    (interOf 0 t n).val = 0 ∧ (interOf 1 t n).val = t.val ∧ (interOf 2 t n).val = 2 * n.toNat ∧
    (interOf 3 t n).val = t.val / 2 * (2 - n.toNat) ∧
    (interOf 3 .low false).val = 0 ∧ (interOf 3 .low true).val = 0 ∧ (interOf 3 .high false).val = 2 ∧
    (interOf 3 .high true).val = 1

/-- An amplifier's tick ticks its oscillator and then sets the intermediate from the level and the noise bit
as the oscillator left them; nothing else changes. (R200, R201; R146, an inference the spec marks as its own.)
-/
def Obligations.AmplifierTickReadsNoiseAfterItsOscillator : Prop :=
  ∀ (s : State) (i : Chan),
    (State.ampTick i s).ampAt i =
      { s.ampAt i with
        inter := interOf (BitVec.ofBool (s.ampAt i).noiseEn ++ BitVec.ofBool (s.ampAt i).toneEn)
          ((State.oscTick i s).oscAt i).level
          (((State.oscTick i s).noiseAt (if i.val ≤ 2 then 0 else 1)).reg.getLsbD 0) } ∧
    (∀ k : Chan, k ≠ i → (State.ampTick i s).ampAt k = s.ampAt k) ∧
    (State.ampTick i s).osc = (State.oscTick i s).osc ∧
    (State.ampTick i s).noise = (State.oscTick i s).noise ∧
    (State.ampTick i s).env = (State.oscTick i s).env ∧ sameDevice s (State.ampTick i s)

/-- An amplifier's output: zero when muted or synced; the envelope path on channels 2 and 5 when their
envelope is enabled; else volume times intermediate; never above 30 a side. (R203 to R206.) -/
def Obligations.AmplifierOutput : Prop :=
  ∀ (s : State) (i : Chan),
    ((s.ampAt i).mute = true ∨ (s.ampAt i).sync = true → State.ampOut i s = (0, 0)) ∧
    ((s.ampAt i).mute = false → (s.ampAt i).sync = false →
      (∀ j : Gen, (i = 2 ∧ j = 0) ∨ (i = 5 ∧ j = 1) → (s.envAt j).enabled = true →
        State.ampOut i s =
          (envAmp s.params (s.ampAt i).volL (envLeft s.params (s.envAt j)) (s.envAt j).res3 *
              (s.ampAt i).inter.val,
            envAmp s.params (s.ampAt i).volR (envRight s.params (s.envAt j)) (s.envAt j).res3 *
              (s.ampAt i).inter.val)) ∧
      ((i = 2 → (s.envAt 0).enabled = false) → (i = 5 → (s.envAt 1).enabled = false) →
        State.ampOut i s =
          ((s.ampAt i).volL.toNat * (s.ampAt i).inter.val,
            (s.ampAt i).volR.toNat * (s.ampAt i).inter.val))) ∧
    (State.ampOut i s).1 ≤ 30 ∧ (State.ampOut i s).2 ≤ 30

/-! ### The sample pipeline -/

/-- A sub-tick ticks noise generator 0, then 1, then for each channel in order ticks the amplifier and at once
adds its output to the sums. SAMPLE completes in every state: it runs 2^OVERSAMPLE sub-ticks, averages by floor,
gains, filters with the old accumulator, and emits exactly one frame; what only a register write can change is
kept. (R240 to R244.) -/
def Obligations.SampleEmitsOneFilteredFrame : Prop :=
  (∀ m : Mix, ∃ s0 s1 s2 s3 s4 s5 s6 : State,
    s0 = State.noiseTickAt 1 (State.noiseTickAt 0 m.st) ∧
    s1 = State.ampTick 0 s0 ∧ s2 = State.ampTick 1 s1 ∧ s3 = State.ampTick 2 s2 ∧
    s4 = State.ampTick 3 s3 ∧ s5 = State.ampTick 4 s4 ∧ s6 = State.ampTick 5 s5 ∧
    (subTick m).st = s6 ∧
    (subTick m).sumL = m.sumL + (State.ampOut 0 s1).1 + (State.ampOut 1 s2).1 + (State.ampOut 2 s3).1 +
      (State.ampOut 3 s4).1 + (State.ampOut 4 s5).1 + (State.ampOut 5 s6).1 ∧
    (subTick m).sumR = m.sumR + (State.ampOut 0 s1).2 + (State.ampOut 1 s2).2 + (State.ampOut 2 s3).2 +
      (State.ampOut 3 s4).2 + (State.ampOut 4 s5).2 + (State.ampOut 5 s6).2) ∧
  ∀ s : State, ∃ (t : State) (m : Mix) (xL xR yL yR : Int),
    exec .sample s = .next t ∧
    m = iter (2 ^ s.cfg.oversample) subTick { st := s, sumL := 0, sumR := 0 } ∧
    xL = ((m.sumL / 2 ^ s.cfg.oversample * s.params.gain : Nat) : Int) ∧
    xR = ((m.sumR / 2 ^ s.cfg.oversample * s.params.gain : Nat) : Int) ∧
    (s.params.hpfEnable = true →
      yL = xL - s.zL / 65536 ∧ yR = xR - s.zR / 65536 ∧
      t.zL = (s.params.hpfA * xL * 65536 + s.params.hpfB * s.zL) / 65536 ∧
      t.zR = (s.params.hpfA * xR * 65536 + s.params.hpfB * s.zR) / 65536) ∧
    (s.params.hpfEnable = false → yL = xL ∧ yR = xR ∧ t.zL = s.zL ∧ t.zR = s.zR) ∧
    t.out = s.out ++ [{ left := clamp16 yL, right := clamp16 yR }] ∧
    t.osc = m.st.osc ∧ t.noise = m.st.noise ∧ t.env = m.st.env ∧ t.amp = m.st.amp ∧
    t.latch = s.latch ∧ t.enable = s.enable ∧ t.gsync = s.gsync ∧ t.cfg = s.cfg ∧ t.params = s.params ∧
    t.pending = s.pending ∧
    (∀ i : Chan, t.ampAt i = { s.ampAt i with inter := (t.ampAt i).inter } ∧
      (t.oscAt i).nextOct = (s.oscAt i).nextOct ∧ (t.oscAt i).nextOff = (s.oscAt i).nextOff ∧
      (t.oscAt i).sync = (s.oscAt i).sync) ∧
    (∀ j : Gen, (t.noiseAt j).mode = (s.noiseAt j).mode ∧ (t.noiseAt j).sync = (s.noiseAt j).sync ∧
      (t.envAt j).enabled = (s.envAt j).enabled ∧ (t.envAt j).pendByte = (s.envAt j).pendByte)

/-- The sums of a SAMPLE are at most 6 * 30 a sub-tick, so the averages are at most 180. (R241, R242.) -/
def Obligations.SampleAveragesAreAtMost180 : Prop :=
  ∀ s : State,
    s.subTicks.sumL ≤ 180 * 2 ^ s.cfg.oversample ∧ s.subTicks.sumR ≤ 180 * 2 ^ s.cfg.oversample ∧
    s.subTicks.sumL / 2 ^ s.cfg.oversample ≤ 180 ∧ s.subTicks.sumR / 2 ^ s.cfg.oversample ≤ 180

/-- After a SAMPLE every oscillator's counter is below the threshold. (R23, an inference the spec marks as its
own.) -/
def Obligations.CountersAreBelowTheThresholdAfterSample : Prop :=
  ∀ (s t : State), 0 < s.thresh → s.oscInv → exec .sample s = .next t →
    ∀ i : Chan, (t.oscAt i).counter < t.thresh

/-- While the output is disabled or synced, a SAMPLE mixes silence: with the filter on, the frame is the
filter's memory decaying, with the filter off it is (0, 0). (R204, R243; R302, an inference the spec marks as
its own.) -/
def Obligations.MutedSampleIsTheFilterDecay : Prop :=
  ∀ (s t : State), s.copyInv → s.enable = false ∨ s.gsync = true → exec .sample s = .next t →
    s.subTicks.sumL = 0 ∧ s.subTicks.sumR = 0 ∧
    (s.params.hpfEnable = true →
      t.out = s.out ++ [{ left := clamp16 (-(s.zL / 65536)), right := clamp16 (-(s.zR / 65536)) }]) ∧
    (s.params.hpfEnable = false → t.out = s.out ++ [{ left := 0, right := 0 }])

/-- Under global sync a SAMPLE moves no oscillator, no noise generator and no envelope generator. (R308, an
inference the spec marks as its own.) -/
def Obligations.SyncedSampleMovesNoGenerator : Prop :=
  ∀ (s t : State), s.copyInv → s.gsync = true → exec .sample s = .next t → sameGenerators s t

/-- At the default gain, with accumulators in range, a filtered value lies in -32760 .. 32760, so the clamp
changes nothing, and the accumulator stays in range. (R242 to R244; the default gain and coefficients are log
5.) -/
def Obligations.DefaultOutputNeverClamps : Prop :=
  ∀ (sum ov : Nat) (z : Int), sum ≤ 180 * 2 ^ ov → 0 ≤ z → z ≤ 32760 * 65536 →
    ∃ x : Nat, x = preFilter defaultParams { defaultCfg with oversample := ov } sum ∧
      -32760 ≤ (hpf defaultParams x z).1 ∧ (hpf defaultParams x z).1 ≤ 32760 ∧
      (clamp16 (hpf defaultParams x z).1).toInt = (hpf defaultParams x z).1 ∧
      0 ≤ (hpf defaultParams x z).2 ∧ (hpf defaultParams x z).2 ≤ 32760 * 65536

/-- A frame is four bytes: left then right, each low byte first. (R67, R244.) -/
def Obligations.FrameBytesAreLittleEndianLeftFirst : Prop :=
  (∀ f : Frame, ∃ a b c d : Byte, frameBytes f = [a, b, c, d] ∧
    f.left.toNat = a.toNat + 256 * b.toNat ∧ f.right.toNat = c.toNat + 256 * d.toNat) ∧
  frameBytes { left := clamp16 4732, right := clamp16 (-30) } = [0x7C, 0x12, 0xE2, 0xFF] ∧
  frameBytes { left := clamp16 5460, right := clamp16 (-1) } = [0x54, 0x15, 0xFF, 0xFF] ∧
  frameBytes { left := clamp16 72000, right := clamp16 (-72000) } = [0xFF, 0x7F, 0x00, 0x80]

/-- GEN completes for every count, emits exactly `count` frames, does nothing for 0, is SAMPLE for 1, and GEN
m then GEN n is GEN (m + n). Op 1 decodes to GEN of its arg. For counts past R82's range this is the model's
reading, log 7, DEDUCED. (R82, R84, R245.) -/
def Obligations.GenEmitsExactlyCountFrames : Prop :=
  (∀ (n : Nat) (s : State), ∃ (t : State) (fs : List Frame), exec (.gen n) s = .next t ∧
    fs.length = n ∧ t.out = s.out ++ fs ∧ t.latch = s.latch ∧ t.enable = s.enable ∧
    t.gsync = s.gsync ∧ t.cfg = s.cfg ∧ t.params = s.params ∧ t.pending = s.pending) ∧
  (∀ s : State, exec (.gen 0) s = .next s) ∧
  (∀ s : State, exec (.gen 1) s = exec .sample s) ∧
  (∀ (m n : Nat) (s t : State), exec (.gen m) s = .next t → exec (.gen (m + n)) s = exec (.gen n) t) ∧
  (∀ n : Nat, decodeHost 1 n = .ok (.gen n))

/-- Running the program of n SAMPLE requests is GEN n. (R91, R245.) -/
def Obligations.GenIsItsSampleProgram : Prop :=
  ∀ (n : Nat) (s : State) (rest : List Request), s.pending = genProgram n ++ rest →
    stepMany n s = exec (.gen n) { s with pending := rest }

/-- The output stream only grows: SAMPLE appends one frame, GEN its count, every other operation none. (R60,
R245; holding the stream in the state is log 3.) -/
def Obligations.OutputStreamIsAppendOnly : Prop :=
  ∀ (i : Instr) (s t : State), exec i s = .next t →
    ∃ fs : List Frame, t.out = s.out ++ fs ∧
      (i = .sample → fs.length = 1) ∧ (∀ n, i = .gen n → fs.length = n) ∧
      (i ≠ .sample → (∀ n, i ≠ .gen n) → fs = [])

/-- Amplifier settings, filter memory and emitted frames never reach the generators: two devices with the same
generators and configuration have the same generators after any number of samples. (R200, R240.) -/
def Obligations.AmplifiersDoNotInfluenceGenerators : Prop :=
  ∀ (n : Nat) (s s' t t' : State), sameGenerators s s' →
    exec (.gen n) s = .next t → exec (.gen n) s' = .next t' → sameGenerators t t'

/-- The right side never reaches the left: two devices that differ only in right volumes, the right filter
accumulator and the frames emitted before emit the same left samples. (R203, R240, R241, R243.) -/
def Obligations.RightSideDoesNotInfluenceTheLeft : Prop :=
  ∀ (n : Nat) (s s' t t' : State), sameGenerators s s' → s'.zL = s.zL →
    (∀ i : Chan, s'.ampAt i = { s.ampAt i with volR := (s'.ampAt i).volR }) →
    exec (.gen n) s = .next t → exec (.gen n) s' = .next t' →
    t'.zL = t.zL ∧ ∃ fs fs' : List Frame, t.out = s.out ++ fs ∧ t'.out = s'.out ++ fs' ∧
      fs.map (fun f => f.left) = fs'.map (fun f => f.left)

/-! ### Configuration and CLEAR -/

/-- SET_CLOCK in range sets the clock rate and recomputes every increment; all else is kept. (R250.) -/
def Obligations.SetClockRecomputesEveryIncrement : Prop :=
  ∀ (hz : Nat) (s : State), 1 ≤ hz → hz ≤ 2 ^ 25 → ∃ t : State, exec (.setClock hz) s = .next t ∧
    t.cfg = { s.cfg with clockHz := hz } ∧
    (∀ i : Chan, t.oscAt i =
      { s.oscAt i with add := romFreq s.params hz (s.oscAt i).curOct (s.oscAt i).curOff }) ∧
    t.noise = s.noise ∧ t.env = s.env ∧ t.amp = s.amp ∧ t.latch = s.latch ∧ t.enable = s.enable ∧
    t.gsync = s.gsync ∧ t.zL = s.zL ∧ t.zR = s.zR ∧ t.params = s.params ∧ t.out = s.out ∧
    t.pending = s.pending

/-- SET_RATE and SET_OVERSAMPLE in range set their value and nothing else; the threshold follows. (R31, R251,
R252.) -/
def Obligations.SetRateAndOversampleChangeOnlyTheConfiguration : Prop :=
  (∀ (hz : Nat) (s : State), 1 ≤ hz → hz ≤ 2 ^ 20 →
    exec (.setRate hz) s = .next { s with cfg := { s.cfg with sampleHz := hz } } ∧
    ({ s with cfg := { s.cfg with sampleHz := hz } } : State).thresh =
      hz * 2 ^ s.cfg.oversample * 4096) ∧
  (∀ (n : Nat) (s : State), n ≤ 8 →
    exec (.setOversample n) s = .next { s with cfg := { s.cfg with oversample := n } } ∧
    ({ s with cfg := { s.cfg with oversample := n } } : State).thresh = s.cfg.sampleHz * 2 ^ n * 4096)

/-- A configuration value outside its range is refused. (R84, R250 to R252.) -/
def Obligations.ConfigurationOutOfRangeIsRefused : Prop :=
  (∀ (hz : Nat) (s : State), hz < 1 ∨ 2 ^ 25 < hz → exec (.setClock hz) s = .refused .configOutOfRange) ∧
  (∀ (hz : Nat) (s : State), hz < 1 ∨ 2 ^ 20 < hz → exec (.setRate hz) s = .refused .configOutOfRange) ∧
  (∀ (n : Nat) (s : State), 8 < n → exec (.setOversample n) s = .refused .configOutOfRange)

/-- The end state of CLEAR, from any start state, field by field. (R301, an inference the spec marks as its
own, from R255.) -/
def Obligations.ClearEndState : Prop :=
  ∀ s : State, ∃ t : State, exec .clear s = .next t ∧
    (∀ i : Chan, t.oscAt i =
      { counter := 0, add := s.rom 0 0, curOct := 0, curOff := 0, nextOct := 0, nextOff := 0,
        newData := false, octWritten := false, ignoreOffset := false, sync := false,
        level := (s.oscAt i).level }) ∧
    (∀ j : Gen, t.noiseAt j = { reg := (s.noiseAt j).reg, counter := 0, mode := 0, sync := false }) ∧
    (∀ j : Gen, t.envAt j =
      { enabled := false, waveform := 0, res3 := false, invertRight := false, extClock := false,
        ended := true, ready := true, phase := 0, pos := 0, pendValid := false,
        pendByte := (s.envAt j).pendByte }) ∧
    (∀ i : Chan, t.ampAt i =
      { volL := 0, volR := 0, toneEn := false, noiseEn := false, mute := true, sync := false,
        inter := (s.ampAt i).inter }) ∧
    t.latch = 0 ∧ t.enable = false ∧ t.gsync = false ∧ t.zL = s.zL ∧ t.zR = s.zR ∧ sameStream s t ∧
    ∀ i : Chan, State.ampOut i t = (0, 0)

/-- Running the 67 bus words of CLEAR one by one is CLEAR. (R91, R255; one atomic step is log 13.) -/
def Obligations.ClearIsItsBusProgram : Prop :=
  clearProgram.length = 67 ∧
  ∀ (s : State) (rest : List Request), s.pending = clearProgram ++ rest →
    stepMany 67 s = exec .clear { s with pending := rest }

/-- Only WD_CTRL with bit 0 set enables the output: from a muted device whose copies agree, every other
operation leaves every amplifier's output zero. (R33, R204, R233; also R301, an inference the spec marks as its
own.) -/
def Obligations.OnlyGlobalControlUnmutes : Prop :=
  ∀ (i : Instr) (s t : State), s.copyInv → s.enable = false → (∀ sy, i ≠ .wdCtrl true sy) →
    exec i s = .next t → t.copyInv ∧ t.enable = false ∧ ∀ c : Chan, State.ampOut c t = (0, 0)

/-! ### Whole-machine rules -/

/-- Only WA and CLEAR change the latch. (R89, an inference the spec marks as its own.) -/
def Obligations.LatchChangesOnlyByAddressWriteAndClear : Prop :=
  ∀ (i : Instr) (s t : State), exec i s = .next t →
    (∀ reg, i = .wa reg → t.latch = regOfByte reg) ∧ (i = .clear → t.latch = 0) ∧
    ((∀ reg, i ≠ .wa reg) → i ≠ .clear → t.latch = s.latch)

/-- No operation writes the fixed parameters, only the three configuration operations write the configuration
and each keeps it legal, and at power-on the configuration has its defaults. (R30.) -/
def Obligations.OnlyConfigurationOperationsWriteTheConfiguration : Prop :=
  (∀ (i : Instr) (s t : State), exec i s = .next t →
    t.params = s.params ∧
    ((∀ hz, i ≠ .setClock hz) → t.cfg.clockHz = s.cfg.clockHz) ∧
    ((∀ hz, i ≠ .setRate hz) → t.cfg.sampleHz = s.cfg.sampleHz) ∧
    ((∀ n, i ≠ .setOversample n) → t.cfg.oversample = s.cfg.oversample) ∧
    (s.cfgInv → t.cfgInv)) ∧
  State.reset.cfg = { clockHz := 8000000, sampleHz := 44100, oversample := 6 }

/-- The power-on state, field by field, for every choice of parameters and configuration, and at the defaults.
CLEAR leads from it to itself. (R300.) -/
def Obligations.PowerOnState : Prop :=
  (∀ (p : Params) (c : Cfg) (s : State), s = State.powerOn p c →
    (∀ i : Chan, s.oscAt i =
      { counter := 0, add := romFreq p c.clockHz 0 0, curOct := 0, curOff := 0, nextOct := 0, nextOff := 0,
        newData := false, octWritten := false, ignoreOffset := false, sync := false, level := .low }) ∧
    (∀ j : Gen, s.noiseAt j = { reg := p.noiseSeed, counter := 0, mode := 0, sync := false }) ∧
    (∀ j : Gen, s.envAt j =
      { enabled := false, waveform := 0, res3 := false, invertRight := false, extClock := false,
        ended := true, ready := true, phase := 0, pos := 0, pendValid := false, pendByte := 0 }) ∧
    (∀ i : Chan, s.ampAt i =
      { volL := 0, volR := 0, toneEn := false, noiseEn := false, mute := true, sync := false, inter := 0 }) ∧
    s.latch = 0 ∧ s.enable = false ∧ s.gsync = false ∧ s.zL = 0 ∧ s.zR = 0 ∧ s.cfg = c ∧
    exec .clear s = .next s) ∧
  State.reset = State.powerOn defaultParams { clockHz := 8000000, sampleHz := 44100, oversample := 6 } ∧
  defaultParams.noiseSeed = 0x11111111 ∧ romFreq defaultParams 8000000 0 0 = 250489

/-- The invariants hold at power-on. Those of R23 and R27 are inferences the spec marks as its own; those of the
buffer, the noise counters and the filter are the model's, from R104, R142, R145 and R243. (R29, R104, R142,
R145, R243, R300; R23 and R27, inferences.) -/
def Obligations.InvariantsHoldAtReset : Prop :=
  State.reset.oscInv ∧ State.reset.bufferInv ∧ State.reset.noiseInv ∧ State.reset.envInv ∧
    State.reset.copyInv ∧ State.reset.cfgInv ∧ State.reset.filterInv ∧
    State.reset.filterRange

/-- Every step keeps the oscillator invariants. (R23, an inference the spec marks as its own.) -/
def Obligations.OscillatorInvariantIsKept : Prop :=
  ∀ s t : State, s.oscInv → step s = .next t → t.oscInv

/-- Every step keeps the agreement of an oscillator's buffer with the values in use, and a synced noise
counter at 0. (R104, R142, R145.) -/
def Obligations.BufferAndNoiseInvariantsAreKept : Prop :=
  ∀ s t : State, step s = .next t → (s.bufferInv → t.bufferInv) ∧ (s.noiseInv → t.noiseInv)

/-- Every step keeps the envelope invariants. (R27, an inference the spec marks as its own.) -/
def Obligations.EnvelopeInvariantIsKept : Prop :=
  ∀ s t : State, s.envInv → step s = .next t → t.envInv

/-- Every step keeps the mute and sync copies in agreement with the device. (R29.) -/
def Obligations.CopyInvariantIsKept : Prop :=
  ∀ s t : State, s.copyInv → step s = .next t → t.copyInv

/-- Every step keeps the filter accumulators bounded, for every legal HPF_B; for legal GAIN and HPF_A and an
HPF_B below 2^16 the bound is within signed 64 bits. For coefficients that sum to at most 2^16, whatever the
gain, the range is the one R243 gives for the default parameters. With HPF_B = 2^16, which R6 allows, an
accumulator is bounded below only: there the model keeps its exact value (log 10, DEDUCED). (R243, R29; the
bound is the model's, log 10.) -/
def Obligations.FilterInvariantIsKept : Prop :=
  (∀ s t : State, s.filterInv → step s = .next t → t.filterInv) ∧
  (∀ s : State, s.filterInv → s.params.gain ≤ 2 ^ 16 → s.params.hpfA ≤ 2 ^ 16 → s.params.hpfB < 2 ^ 16 →
    s.zL < 2 ^ 63 ∧ s.zR < 2 ^ 63) ∧
  (∀ s t : State, s.filterRange → step s = .next t → t.filterRange)
end

