-- ==== Sys2Proof/Laws/Banks.lean ====
section
/-! SUPPORT. Reading a bank after a write, a map or a build, and extensionality of banks. -/

namespace Sys2Proof.Machine

variable {α : Type}

@[simp] theorem Six.get_set_self (v : Six α) (i : Chan) (x : α) : (v.set i x).get i = x := by
  fin_cases i <;> rfl

theorem Six.get_set_ne (v : Six α) {i j : Chan} (x : α) (h : j ≠ i) : (v.set i x).get j = v.get j := by
  fin_cases i <;> fin_cases j <;> first | rfl | exact absurd rfl h

theorem Six.get_set (v : Six α) (i j : Chan) (x : α) :
    (v.set i x).get j = if j = i then x else v.get j := by
  split
  · next h => subst h; simp
  · next h => exact v.get_set_ne x h

@[simp] theorem Six.get_ofFn (f : Chan → α) (i : Chan) : (Six.ofFn f).get i = f i := by
  fin_cases i <;> rfl

@[simp] theorem Six.get_map (f : α → α) (v : Six α) (i : Chan) : (v.map f).get i = f (v.get i) := by
  fin_cases i <;> rfl

theorem Six.ext_get {v w : Six α} (h : ∀ i, v.get i = w.get i) : v = w := by
  cases v; cases w
  simp only [Six.mk.injEq]
  exact ⟨h 0, h 1, h 2, h 3, h 4, h 5⟩

@[simp] theorem Six.set_get (v : Six α) (i : Chan) : v.set i (v.get i) = v := by
  fin_cases i <;> rfl

@[simp] theorem Six.set_set (v : Six α) (i : Chan) (x y : α) : (v.set i x).set i y = v.set i y := by
  fin_cases i <;> rfl

@[simp] theorem Two.get_set_self (v : Two α) (j : Gen) (x : α) : (v.set j x).get j = x := by
  fin_cases j <;> rfl

theorem Two.get_set_ne (v : Two α) {i j : Gen} (x : α) (h : j ≠ i) : (v.set i x).get j = v.get j := by
  fin_cases i <;> fin_cases j <;> first | rfl | exact absurd rfl h

theorem Two.get_set (v : Two α) (i j : Gen) (x : α) :
    (v.set i x).get j = if j = i then x else v.get j := by
  split
  · next h => subst h; simp
  · next h => exact v.get_set_ne x h

@[simp] theorem Two.get_map (f : α → α) (v : Two α) (j : Gen) : (v.map f).get j = f (v.get j) := by
  fin_cases j <;> rfl

@[simp] theorem Two.get_mk_zero (x y : α) : (Two.mk x y).get 0 = x := rfl

@[simp] theorem Two.get_mk_one (x y : α) : (Two.mk x y).get 1 = y := rfl

theorem Two.ext_get {v w : Two α} (h : ∀ j, v.get j = w.get j) : v = w := by
  cases v; cases w
  simp only [Two.mk.injEq]
  exact ⟨h 0, h 1⟩

@[simp] theorem Two.set_get (v : Two α) (j : Gen) : v.set j (v.get j) = v := by
  fin_cases j <;> rfl

@[simp] theorem Two.set_set (v : Two α) (j : Gen) (x y : α) : (v.set j x).set j y = v.set j y := by
  fin_cases j <;> rfl

end Sys2Proof.Machine
end

