-- ==== Sys2Proof/Laws/Decode.lean ====
section
/-! SUPPORT. The fields of an encoded key read back, and the fields of a packed byte. -/

namespace Sys2Proof

/-- The high part of an appended vector. -/
theorem extract_append_high {n m : Nat} (a : BitVec n) (b : BitVec m) : (a ++ b).extractLsb' m n = a := by
  ext i hi; simp [BitVec.getLsbD_append, hi]

/-- A slice of the low part of an appended vector. -/
theorem extract_append_low {n m : Nat} (a : BitVec n) (b : BitVec m) (k l : Nat) (h : k + l ≤ m) :
    (a ++ b).extractLsb' k l = b.extractLsb' k l := by
  ext i hi; simp [BitVec.getLsbD_append, show k + i < m by omega]

/-- A whole vector's slice is the vector. -/
theorem extract_all {n : Nat} (a : BitVec n) : a.extractLsb' 0 n = a := by
  ext i hi; simp

/-- A vector is its high part appended to its low part. -/
theorem append_extract {n m : Nat} (a : BitVec (n + m)) : a.extractLsb' m n ++ a.extractLsb' 0 m = a := by
  ext i hi
  simp only [BitVec.getElem_append, BitVec.getElem_extractLsb']
  split
  · simp [BitVec.getLsbD_eq_getElem hi]
  · simp [show m + (i - m) = i by omega, BitVec.getLsbD_eq_getElem hi]

@[simp] theorem keyLatch_busKey (l : BitVec 5) (w : BusWord) : keyLatch (busKey l w) = l :=
  extract_append_high l w

@[simp] theorem keyBus_busKey (l : BitVec 5) (w : BusWord) : keyBus (busKey l w) = w :=
  (extract_append_low l w 0 9 (by decide)).trans (extract_all w)

@[simp] theorem busKey_fields (k : Key) : busKey (keyLatch k) (keyBus k) = k := append_extract (n := 5) (m := 9) k

@[simp] theorem keyData_busKey (l : BitVec 5) (w : BusWord) : keyData (busKey l w) = w.extractLsb' 0 8 :=
  extract_append_low l w 0 8 (by decide)

@[simp] theorem keyA0_busKey (l : BitVec 5) (w : BusWord) : keyA0 (busKey l w) = w.getLsbD 8 := by
  have h : (l ++ w).getLsbD 8 = w.getLsbD 8 := by rw [BitVec.getLsbD_append]; rfl
  exact h

@[simp] theorem dataWord_low (d : Byte) : (dataWord d).extractLsb' 0 8 = d :=
  (extract_append_low 0#1 d 0 8 (by decide)).trans (extract_all d)

@[simp] theorem addressWord_low (d : Byte) : (addressWord d).extractLsb' 0 8 = d :=
  (extract_append_low 1#1 d 0 8 (by decide)).trans (extract_all d)

@[simp] theorem dataWord_bit8 (d : Byte) : (dataWord d).getLsbD 8 = false := by
  have h : (0#1 ++ d).getLsbD 8 = false := by rw [BitVec.getLsbD_append]; rfl
  exact h

@[simp] theorem addressWord_bit8 (d : Byte) : (addressWord d).getLsbD 8 = true := by
  have h : (1#1 ++ d).getLsbD 8 = true := by rw [BitVec.getLsbD_append]; rfl
  exact h

@[simp] theorem keyLatch_dataKey (l : BitVec 5) (d : Byte) : keyLatch (dataKey l d) = l :=
  keyLatch_busKey l _

/-- A data word decodes to the data write of the latch. -/
@[simp] theorem decodeKey_dataWord (l : BitVec 5) (d : Byte) :
    decodeKey (busKey l (dataWord d)) = decodeData l d := by
  simp only [decodeKey, keyA0_busKey, dataWord_bit8, keyLatch_busKey, keyData_busKey, dataWord_low]
  rfl

@[simp] theorem decodeKey_dataKey (l : BitVec 5) (d : Byte) : decodeKey (dataKey l d) = decodeData l d :=
  decodeKey_dataWord l d

/-- An address word decodes to WA under every latch. -/
@[simp] theorem decodeKey_addressWord (l : BitVec 5) (d : Byte) :
    decodeKey (busKey l (addressWord d)) = .wa d := by
  simp only [decodeKey, keyA0_busKey, addressWord_bit8, keyData_busKey, addressWord_low]
  rfl

@[simp] theorem lowNibble_packNibbles (hi lo : BitVec 4) : lowNibble (packNibbles hi lo) = lo :=
  (extract_append_low hi lo 0 4 (by decide)).trans (extract_all lo)

@[simp] theorem highNibble_packNibbles (hi lo : BitVec 4) : highNibble (packNibbles hi lo) = hi :=
  extract_append_high hi lo

@[simp] theorem packNibbles_nibbles (d : Byte) : packNibbles (highNibble d) (lowNibble d) = d :=
  append_extract (n := 4) (m := 4) d

/-- Every bus word is a data word or an address word. -/
theorem busWord_cases (w : BusWord) : (∃ d, w = dataWord d) ∨ ∃ d, w = addressWord d := by
  have hw : w.extractLsb' 8 1 ++ w.extractLsb' 0 8 = w := append_extract (n := 1) (m := 8) w
  have hb : ∀ b : BitVec 1, b = 0#1 ∨ b = 1#1 := by decide
  rcases hb (w.extractLsb' 8 1) with h | h
  · exact .inl ⟨w.extractLsb' 0 8, by rw [dataWord, ← h]; exact hw.symm⟩
  · exact .inr ⟨w.extractLsb' 0 8, by rw [addressWord, ← h]; exact hw.symm⟩

/-- Everything a host record can decode to: the operation of one of the six ops, or the reserved op. -/
theorem decodeHost_cases (op : BitVec 4) (arg : Nat) :
    (op = 0 ∧ decodeHost op arg = .ok .sample) ∨ (op = 1 ∧ decodeHost op arg = .ok (.gen arg)) ∨
    (op = 2 ∧ decodeHost op arg = .ok .clear) ∨ (op = 3 ∧ decodeHost op arg = .ok (.setClock arg)) ∨
    (op = 4 ∧ decodeHost op arg = .ok (.setRate arg)) ∨ (op = 5 ∧ decodeHost op arg = .ok (.setOversample arg)) ∨
    (6 ≤ op.toNat ∧ decodeHost op arg = .error (.reservedHostOp op)) := by
  have hop : ∀ o : BitVec 4, o = 0 ∨ o = 1 ∨ o = 2 ∨ o = 3 ∨ o = 4 ∨ o = 5 ∨
      o = 6 ∨ o = 7 ∨ o = 8 ∨ o = 9 ∨ o = 10 ∨ o = 11 ∨ o = 12 ∨ o = 13 ∨ o = 14 ∨ o = 15 := by decide
  rcases hop op with h | h | h | h | h | h | h | h | h | h | h | h | h | h | h | h <;> subst h <;> simp [decodeHost]

end Sys2Proof
end

