-- ==== Sys2Proof/Laws/Envelope.lean ====
section
/-! SUPPORT. What an envelope generator's clock can do: it keeps the enable flag and the buffered byte, and
its parts case by case. -/

namespace Sys2Proof.Machine

@[simp] theorem envLoad_enabled (b : Byte) (e : Env) : (envLoad b e).enabled = e.enabled := rfl

@[simp] theorem envLoad_pendByte (b : Byte) (e : Env) : (envLoad b e).pendByte = e.pendByte := rfl

@[simp] theorem envLoad_phase (b : Byte) (e : Env) : (envLoad b e).phase = 0 := rfl

@[simp] theorem envLoad_ready (b : Byte) (e : Env) : (envLoad b e).ready = false := rfl

@[simp] theorem envLoad_ended (b : Byte) (e : Env) : (envLoad b e).ended = false := rfl

@[simp] theorem envLoad_pendValid (b : Byte) (e : Env) : (envLoad b e).pendValid = false := rfl

/-- Advancing keeps everything but position, phase, `ready` and `ended`. -/
theorem envAdvance_keeps (p : Params) (e : Env) :
    (envAdvance p e).enabled = e.enabled ∧ (envAdvance p e).waveform = e.waveform ∧
      (envAdvance p e).res3 = e.res3 ∧ (envAdvance p e).invertRight = e.invertRight ∧
      (envAdvance p e).extClock = e.extClock ∧ (envAdvance p e).pendValid = e.pendValid ∧
      (envAdvance p e).pendByte = e.pendByte := by
  unfold envAdvance envNextPhase flagCycleEnd
  dsimp only
  split
  · split <;> exact ⟨rfl, rfl, rfl, rfl, rfl, rfl, rfl⟩
  · exact ⟨rfl, rfl, rfl, rfl, rfl, rfl, rfl⟩

/-- A clock keeps the enable flag and the buffered byte. -/
theorem envClock_keeps (p : Params) (e : Env) :
    (envClock p e).enabled = e.enabled ∧ (envClock p e).pendByte = e.pendByte := by
  have h := envAdvance_keeps p e
  unfold envClock envLoadPending
  split
  · exact ⟨rfl, rfl⟩
  · split
    · exact ⟨h.1, h.2.2.2.2.2.2⟩
    · exact ⟨h.1, h.2.2.2.2.2.2⟩

/-- A disabled or ended generator ignores its clock. -/
theorem envClock_of_stopped (p : Params) (e : Env) (h : e.enabled = false ∨ e.ended = true) :
    envClock p e = e := by
  unfold envClock
  rcases h with h | h <;> simp [h]

/-- A running generator's clock advances it and then loads what is buffered, once ready. -/
theorem envClock_of_running (p : Params) (e : Env) (h : e.enabled = true) (k : e.ended = false) :
    envClock p e = envLoadPending (envAdvance p e) := by
  simp [envClock, h, k]

/-- A property the clock keeps is kept by the internal clock. -/
theorem internalClock_keeps {P : Env → Prop} (p : Params) (h : ∀ e, P e → P (envClock p e)) (e : Env)
    (he : P e) : P (internalClock p e) := by
  unfold internalClock; split
  · exact he
  · exact h e he

/-- A property the clock keeps is kept by the external clock. -/
theorem externalClock_keeps {P : Env → Prop} (p : Params) (h : ∀ e, P e → P (envClock p e)) (e : Env)
    (he : P e) : P (externalClock p e) := by
  unfold externalClock; split
  · exact h e he
  · exact he

end Sys2Proof.Machine
end

