-- ==== Sys2Proof/Laws/Loops.lean ====
section
/-! SUPPORT. Repetition: `iter` composes, an invariant of the body is one of the loop, and a `whileDo` that
counts a threshold down makes exactly the quotient's number of iterations. -/

namespace Sys2Proof.Machine

variable {α β : Type}

@[simp] theorem iter_zero (f : α → α) (a : α) : iter 0 f a = a := rfl

theorem iter_succ (n : Nat) (f : α → α) (a : α) : iter (n + 1) f a = iter n f (f a) := rfl

theorem iter_succ_apply (n : Nat) (f : α → α) (a : α) : iter (n + 1) f a = f (iter n f a) := by
  induction n generalizing a with
  | zero => rfl
  | succ n ih => rw [iter_succ, ih, iter_succ]

theorem iter_add (m n : Nat) (f : α → α) (a : α) : iter (m + n) f a = iter n f (iter m f a) := by
  induction m generalizing a with
  | zero => simp
  | succ m ih => rw [Nat.succ_add, iter_succ, ih, iter_succ]

/-- A property that the body keeps holds after the loop. -/
theorem iter_keeps {P : α → Prop} {f : α → α} (hf : ∀ a, P a → P (f a)) (n : Nat) {a : α} (h : P a) :
    P (iter n f a) := by
  induction n generalizing a with
  | zero => exact h
  | succ n ih => exact ih (hf a h)

/-- A fixed point of the body is one of the loop. -/
theorem iter_fixed {f : α → α} {a : α} (h : f a = a) (n : Nat) : iter n f a = a := by
  induction n with
  | zero => rfl
  | succ n ih => rw [iter_succ, h, ih]

/-- A map that turns one body into another turns the loops into each other. -/
theorem iter_map {f : α → α} {g : β → β} (r : α → β) (h : ∀ a, r (f a) = g (r a)) (n : Nat) (a : α) :
    r (iter n f a) = iter n g (r a) := by
  induction n generalizing a with
  | zero => rfl
  | succ n ih => rw [iter_succ, ih, h, iter_succ]

/-- A property that the body keeps holds after the loop, whatever the condition. -/
theorem whileDo_keeps {P : α → Prop} {c : α → Bool} {f : α → α} (hf : ∀ a, P a → P (f a)) (n : Nat)
    {a : α} (h : P a) : P (whileDo n c f a) := by
  induction n generalizing a with
  | zero => exact h
  | succ n ih =>
    unfold whileDo
    split
    · exact ih (hf a h)
    · exact h

/-- A loop that takes `th` from a count while it can makes `count / th` iterations. `P` is what the body
needs and keeps. -/
theorem whileDo_count {P : α → Prop} {c : α → Bool} {f : α → α} {count : α → Nat} {th : Nat}
    (hth : 0 < th) (hc : ∀ a, P a → c a = decide (th ≤ count a)) (hP : ∀ a, P a → P (f a))
    (hf : ∀ a, P a → count (f a) = count a - th) {a : α} (h : P a) :
    whileDo (count a / th) c f a = iter (count a / th) f a ∧
      count (iter (count a / th) f a) = count a % th := by
  generalize hk : count a / th = k
  induction k generalizing a with
  | zero =>
    refine ⟨rfl, ?_⟩
    have : count a < th := (Nat.div_eq_zero_iff_lt hth).1 hk
    simp [Nat.mod_eq_of_lt this]
  | succ k ih =>
    have hle : th ≤ count a := by
      by_contra hlt
      rw [Nat.div_eq_of_lt (by omega)] at hk
      omega
    have hk' : count (f a) / th = k := by
      have := Nat.div_eq_sub_div hth hle
      rw [hf a h]
      omega
    obtain ⟨h1, h2⟩ := ih (hP a h) hk'
    refine ⟨?_, ?_⟩
    · rw [whileDo, hc a h, if_pos (by simpa using hle), h1, iter_succ]
    · rw [iter_succ, h2, hf a h, ← Nat.mod_eq_sub_mod hle]

end Sys2Proof.Machine
end

