-- ==== Sys2Proof/Laws/State.lean ====
section
/-! SUPPORT. One lemma per field per update of the state. A part's read (`oscAt` and its like) is spelled as
the bank's `get`. -/

namespace Sys2Proof.Machine

@[simp] theorem State.setOsc_osc (s : State) (i : Chan) (o : Osc) : (s.setOsc i o).osc = s.osc.set i o := rfl

@[simp] theorem State.setOsc_noise (s : State) (i : Chan) (o : Osc) : (s.setOsc i o).noise = s.noise := rfl

@[simp] theorem State.setOsc_env (s : State) (i : Chan) (o : Osc) : (s.setOsc i o).env = s.env := rfl

@[simp] theorem State.setOsc_amp (s : State) (i : Chan) (o : Osc) : (s.setOsc i o).amp = s.amp := rfl

@[simp] theorem State.setOsc_latch (s : State) (i : Chan) (o : Osc) : (s.setOsc i o).latch = s.latch := rfl

@[simp] theorem State.setOsc_enable (s : State) (i : Chan) (o : Osc) : (s.setOsc i o).enable = s.enable := rfl

@[simp] theorem State.setOsc_gsync (s : State) (i : Chan) (o : Osc) : (s.setOsc i o).gsync = s.gsync := rfl

@[simp] theorem State.setOsc_zL (s : State) (i : Chan) (o : Osc) : (s.setOsc i o).zL = s.zL := rfl

@[simp] theorem State.setOsc_zR (s : State) (i : Chan) (o : Osc) : (s.setOsc i o).zR = s.zR := rfl

@[simp] theorem State.setOsc_cfg (s : State) (i : Chan) (o : Osc) : (s.setOsc i o).cfg = s.cfg := rfl

@[simp] theorem State.setOsc_params (s : State) (i : Chan) (o : Osc) : (s.setOsc i o).params = s.params := rfl

@[simp] theorem State.setOsc_out (s : State) (i : Chan) (o : Osc) : (s.setOsc i o).out = s.out := rfl

@[simp] theorem State.setOsc_pending (s : State) (i : Chan) (o : Osc) :
    (s.setOsc i o).pending = s.pending := rfl

@[simp] theorem State.setOsc_rom (s : State) (i : Chan) (o : Osc) : (s.setOsc i o).rom = s.rom := rfl

@[simp] theorem State.setOsc_thresh (s : State) (i : Chan) (o : Osc) : (s.setOsc i o).thresh = s.thresh := rfl

@[simp] theorem State.setNoise_osc (s : State) (i : Gen) (n : Noise) : (s.setNoise i n).osc = s.osc := rfl

@[simp] theorem State.setNoise_noise (s : State) (i : Gen) (n : Noise) :
    (s.setNoise i n).noise = s.noise.set i n := rfl

@[simp] theorem State.setNoise_env (s : State) (i : Gen) (n : Noise) : (s.setNoise i n).env = s.env := rfl

@[simp] theorem State.setNoise_amp (s : State) (i : Gen) (n : Noise) : (s.setNoise i n).amp = s.amp := rfl

@[simp] theorem State.setNoise_latch (s : State) (i : Gen) (n : Noise) :
    (s.setNoise i n).latch = s.latch := rfl

@[simp] theorem State.setNoise_enable (s : State) (i : Gen) (n : Noise) :
    (s.setNoise i n).enable = s.enable := rfl

@[simp] theorem State.setNoise_gsync (s : State) (i : Gen) (n : Noise) :
    (s.setNoise i n).gsync = s.gsync := rfl

@[simp] theorem State.setNoise_zL (s : State) (i : Gen) (n : Noise) : (s.setNoise i n).zL = s.zL := rfl

@[simp] theorem State.setNoise_zR (s : State) (i : Gen) (n : Noise) : (s.setNoise i n).zR = s.zR := rfl

@[simp] theorem State.setNoise_cfg (s : State) (i : Gen) (n : Noise) : (s.setNoise i n).cfg = s.cfg := rfl

@[simp] theorem State.setNoise_params (s : State) (i : Gen) (n : Noise) :
    (s.setNoise i n).params = s.params := rfl

@[simp] theorem State.setNoise_out (s : State) (i : Gen) (n : Noise) : (s.setNoise i n).out = s.out := rfl

@[simp] theorem State.setNoise_pending (s : State) (i : Gen) (n : Noise) :
    (s.setNoise i n).pending = s.pending := rfl

@[simp] theorem State.setNoise_rom (s : State) (i : Gen) (n : Noise) : (s.setNoise i n).rom = s.rom := rfl

@[simp] theorem State.setNoise_thresh (s : State) (i : Gen) (n : Noise) :
    (s.setNoise i n).thresh = s.thresh := rfl

@[simp] theorem State.setEnv_osc (s : State) (i : Gen) (e : Env) : (s.setEnv i e).osc = s.osc := rfl

@[simp] theorem State.setEnv_noise (s : State) (i : Gen) (e : Env) : (s.setEnv i e).noise = s.noise := rfl

@[simp] theorem State.setEnv_env (s : State) (i : Gen) (e : Env) : (s.setEnv i e).env = s.env.set i e := rfl

@[simp] theorem State.setEnv_amp (s : State) (i : Gen) (e : Env) : (s.setEnv i e).amp = s.amp := rfl

@[simp] theorem State.setEnv_latch (s : State) (i : Gen) (e : Env) : (s.setEnv i e).latch = s.latch := rfl

@[simp] theorem State.setEnv_enable (s : State) (i : Gen) (e : Env) : (s.setEnv i e).enable = s.enable := rfl

@[simp] theorem State.setEnv_gsync (s : State) (i : Gen) (e : Env) : (s.setEnv i e).gsync = s.gsync := rfl

@[simp] theorem State.setEnv_zL (s : State) (i : Gen) (e : Env) : (s.setEnv i e).zL = s.zL := rfl

@[simp] theorem State.setEnv_zR (s : State) (i : Gen) (e : Env) : (s.setEnv i e).zR = s.zR := rfl

@[simp] theorem State.setEnv_cfg (s : State) (i : Gen) (e : Env) : (s.setEnv i e).cfg = s.cfg := rfl

@[simp] theorem State.setEnv_params (s : State) (i : Gen) (e : Env) : (s.setEnv i e).params = s.params := rfl

@[simp] theorem State.setEnv_out (s : State) (i : Gen) (e : Env) : (s.setEnv i e).out = s.out := rfl

@[simp] theorem State.setEnv_pending (s : State) (i : Gen) (e : Env) :
    (s.setEnv i e).pending = s.pending := rfl

@[simp] theorem State.setEnv_rom (s : State) (i : Gen) (e : Env) : (s.setEnv i e).rom = s.rom := rfl

@[simp] theorem State.setEnv_thresh (s : State) (i : Gen) (e : Env) : (s.setEnv i e).thresh = s.thresh := rfl

@[simp] theorem State.setAmp_osc (s : State) (i : Chan) (a : Amp) : (s.setAmp i a).osc = s.osc := rfl

@[simp] theorem State.setAmp_noise (s : State) (i : Chan) (a : Amp) : (s.setAmp i a).noise = s.noise := rfl

@[simp] theorem State.setAmp_env (s : State) (i : Chan) (a : Amp) : (s.setAmp i a).env = s.env := rfl

@[simp] theorem State.setAmp_amp (s : State) (i : Chan) (a : Amp) : (s.setAmp i a).amp = s.amp.set i a := rfl

@[simp] theorem State.setAmp_latch (s : State) (i : Chan) (a : Amp) : (s.setAmp i a).latch = s.latch := rfl

@[simp] theorem State.setAmp_enable (s : State) (i : Chan) (a : Amp) : (s.setAmp i a).enable = s.enable := rfl

@[simp] theorem State.setAmp_gsync (s : State) (i : Chan) (a : Amp) : (s.setAmp i a).gsync = s.gsync := rfl

@[simp] theorem State.setAmp_zL (s : State) (i : Chan) (a : Amp) : (s.setAmp i a).zL = s.zL := rfl

@[simp] theorem State.setAmp_zR (s : State) (i : Chan) (a : Amp) : (s.setAmp i a).zR = s.zR := rfl

@[simp] theorem State.setAmp_cfg (s : State) (i : Chan) (a : Amp) : (s.setAmp i a).cfg = s.cfg := rfl

@[simp] theorem State.setAmp_params (s : State) (i : Chan) (a : Amp) : (s.setAmp i a).params = s.params := rfl

@[simp] theorem State.setAmp_out (s : State) (i : Chan) (a : Amp) : (s.setAmp i a).out = s.out := rfl

@[simp] theorem State.setAmp_pending (s : State) (i : Chan) (a : Amp) :
    (s.setAmp i a).pending = s.pending := rfl

@[simp] theorem State.setAmp_rom (s : State) (i : Chan) (a : Amp) : (s.setAmp i a).rom = s.rom := rfl

@[simp] theorem State.setAmp_thresh (s : State) (i : Chan) (a : Amp) : (s.setAmp i a).thresh = s.thresh := rfl

end Sys2Proof.Machine
end

