-- ==== Sys2Proof/Laws/NoiseGen.lean ====
section
/-! SUPPORT. What a noise generator's operations can do: which fields a shift, a trigger and a tick keep, and
the loop of a tick in closed form. -/

namespace Sys2Proof.Machine

@[simp] theorem noiseShift_counter (n : Noise) : (noiseShift n).counter = n.counter := rfl

@[simp] theorem noiseShift_mode (n : Noise) : (noiseShift n).mode = n.mode := rfl

@[simp] theorem noiseShift_sync (n : Noise) : (noiseShift n).sync = n.sync := rfl

/-- A shift reads and writes the register only. -/
theorem noiseShift_with_counter (n : Noise) (c : Nat) :
    noiseShift { n with counter := c } = { noiseShift n with counter := c } := rfl

@[simp] theorem noiseCross_counter (th : Nat) (n : Noise) : (noiseCross th n).counter = n.counter - th := rfl

@[simp] theorem noiseCross_mode (th : Nat) (n : Noise) : (noiseCross th n).mode = n.mode := rfl

@[simp] theorem noiseCross_sync (th : Nat) (n : Noise) : (noiseCross th n).sync = n.sync := rfl

@[simp] theorem noiseTrigger_counter (n : Noise) : (noiseTrigger n).counter = n.counter := by
  unfold noiseTrigger; split <;> rfl

@[simp] theorem noiseTrigger_mode (n : Noise) : (noiseTrigger n).mode = n.mode := by
  unfold noiseTrigger; split <;> rfl

@[simp] theorem noiseTrigger_sync (n : Noise) : (noiseTrigger n).sync = n.sync := by
  unfold noiseTrigger; split <;> rfl

/-- Shifts and counter updates do not see each other. -/
theorem iter_noiseShift_with_counter (k : Nat) (n : Noise) (c : Nat) :
    iter k noiseShift { n with counter := c } = { iter k noiseShift n with counter := c } := by
  induction k generalizing n with
  | zero => rfl
  | succ k ih => rw [iter_succ, iter_succ, noiseShift_with_counter, ih]

@[simp] theorem iter_noiseShift_mode (k : Nat) (n : Noise) : (iter k noiseShift n).mode = n.mode :=
  iter_keeps (P := fun m : Noise => m.mode = n.mode) (f := noiseShift) (fun _ h => h) k rfl

@[simp] theorem iter_noiseShift_sync (k : Nat) (n : Noise) : (iter k noiseShift n).sync = n.sync :=
  iter_keeps (P := fun m : Noise => m.sync = n.sync) (f := noiseShift) (fun _ h => h) k rfl

/-- Crossings are shifts with the counter taken down. -/
theorem iter_noiseCross (th k : Nat) (n : Noise) :
    iter k (noiseCross th) n =
      { iter k noiseShift n with counter := (iter k (noiseCross th) n).counter } := by
  induction k generalizing n with
  | zero => rfl
  | succ k ih =>
    rw [iter_succ, ih, iter_succ]
    simp only [noiseCross, noiseShift_with_counter, iter_noiseShift_with_counter]

/-- The loop of a noise tick: one shift per threshold in the counter, which keeps the remainder. -/
theorem noiseLoop_eq {th : Nat} (hth : 0 < th) (n : Noise) :
    noiseLoop th n = { iter (n.counter / th) noiseShift n with counter := n.counter % th } := by
  obtain ⟨h1, h2⟩ := whileDo_count (P := fun _ => True) (c := fun m : Noise => decide (th ≤ m.counter))
    (f := noiseCross th) (count := Noise.counter) hth (fun _ _ => rfl) (fun _ _ => trivial)
    (fun _ _ => rfl) (a := n) trivial
  rw [noiseLoop, h1, iter_noiseCross, h2]

/-- A noise tick keeps the mode and the sync flag, in every state. -/
theorem noiseTick_mode_sync (th inc : Nat) (n : Noise) :
    (noiseTick th inc n).mode = n.mode ∧ (noiseTick th inc n).sync = n.sync := by
  unfold noiseTick
  split
  · exact ⟨rfl, rfl⟩
  · exact whileDo_keeps (P := fun m : Noise => m.mode = n.mode ∧ m.sync = n.sync)
      (f := noiseCross th) (fun _ h => h) _ ⟨rfl, rfl⟩

end Sys2Proof.Machine
end

