-- ==== Sys2Proof/Laws/Frame.lean ====
section
/-! SUPPORT. What the operations of a sub-tick leave alone: the device-level fields (`sameDevice`), the
amplifiers but for their intermediate, and the other parts. -/

namespace Sys2Proof.Machine

theorem sameDevice_refl (s : State) : sameDevice s s := ⟨rfl, rfl, rfl, rfl, rfl, rfl, rfl, rfl, rfl⟩

theorem sameDevice_trans {s t u : State} (h : sameDevice s t) (k : sameDevice t u) : sameDevice s u := by
  obtain ⟨h1, h2, h3, h4, h5, h6, h7, h8, h9⟩ := h
  obtain ⟨k1, k2, k3, k4, k5, k6, k7, k8, k9⟩ := k
  exact ⟨k1.trans h1, k2.trans h2, k3.trans h3, k4.trans h4, k5.trans h5, k6.trans h6, k7.trans h7,
    k8.trans h8, k9.trans h9⟩

theorem sameDevice_setOsc (s : State) (i : Chan) (o : Osc) : sameDevice s (s.setOsc i o) :=
  sameDevice_refl s

theorem sameDevice_setNoise (s : State) (j : Gen) (n : Noise) : sameDevice s (s.setNoise j n) :=
  sameDevice_refl s

theorem sameDevice_setEnv (s : State) (j : Gen) (e : Env) : sameDevice s (s.setEnv j e) :=
  sameDevice_refl s

theorem sameDevice_setAmp (s : State) (i : Chan) (a : Amp) : sameDevice s (s.setAmp i a) :=
  sameDevice_refl s

/-- The device-level fields decide the threshold. -/
theorem thresh_of_sameDevice {s t : State} (h : sameDevice s t) : t.thresh = s.thresh := by
  unfold State.thresh; rw [h.2.2.2.2.2.1]

/-- The device-level fields decide the period table. -/
theorem rom_of_sameDevice {s t : State} (h : sameDevice s t) : t.rom = s.rom := by
  funext a b; unfold State.rom; rw [h.2.2.2.2.2.1, h.2.2.2.2.2.2.1]

theorem params_of_sameDevice {s t : State} (h : sameDevice s t) : t.params = s.params := h.2.2.2.2.2.2.1

theorem cfg_of_sameDevice {s t : State} (h : sameDevice s t) : t.cfg = s.cfg := h.2.2.2.2.2.1

/-! ### Triggers and crossings -/

theorem fireTrig_frame (i : Chan) (s : State) :
    sameDevice s (s.fireTrig i) ∧ (s.fireTrig i).osc = s.osc ∧ (s.fireTrig i).amp = s.amp := by
  fin_cases i <;> exact ⟨sameDevice_refl s, rfl, rfl⟩

/-- A trigger reaches the noise generator wired to its oscillator, and no other. -/
theorem fireTrig_noise (i : Chan) (s : State) (j : Gen) :
    (s.fireTrig i).noise.get j =
      if noiseSource j = i then noiseTrigger (s.noise.get j) else s.noise.get j := by
  fin_cases i <;> fin_cases j <;> rfl

/-- A trigger reaches the envelope generator wired to its oscillator, and no other. -/
theorem fireTrig_env (i : Chan) (s : State) (j : Gen) :
    (s.fireTrig i).env.get j =
      if envSource j = i then internalClock s.params (s.env.get j) else s.env.get j := by
  fin_cases i <;> fin_cases j <;> rfl

theorem crossing_frame (i : Chan) (s : State) :
    sameDevice s (s.crossing i) ∧ (s.crossing i).amp = s.amp := by
  have h := fireTrig_frame i (s.setOsc i (oscFlip s.thresh (s.oscAt i)))
  exact ⟨sameDevice_trans (sameDevice_setOsc s i _) (sameDevice_trans h.1 (sameDevice_setOsc _ i _)), h.2.2⟩

/-- A crossing's own oscillator: flipped, then what waits applied. -/
theorem crossing_osc_self (i : Chan) (s : State) :
    (s.crossing i).osc.get i = oscApplyIfNew s.rom (oscFlip s.thresh (s.osc.get i)) := by
  have h := fireTrig_frame i (s.setOsc i (oscFlip s.thresh (s.oscAt i)))
  have hr := rom_of_sameDevice h.1
  simp only [State.oscAt, State.setOsc_rom] at h hr
  simp only [State.crossing, State.setOsc_osc, Six.get_set_self, State.oscAt, h.2.1, hr]

/-- A crossing leaves the other oscillators alone. -/
theorem crossing_osc_ne (s : State) {i c : Chan} (hc : c ≠ i) : (s.crossing i).osc.get c = s.osc.get c := by
  have h := fireTrig_frame i (s.setOsc i (oscFlip s.thresh (s.oscAt i)))
  simp only [State.crossing, State.setOsc_osc, Six.get_set_ne _ _ hc, h.2.1]

theorem crossing_noise (i : Chan) (s : State) (j : Gen) :
    (s.crossing i).noise.get j =
      if noiseSource j = i then noiseTrigger (s.noise.get j) else s.noise.get j :=
  fireTrig_noise i (s.setOsc i (oscFlip s.thresh (s.oscAt i))) j

theorem crossing_env (i : Chan) (s : State) (j : Gen) :
    (s.crossing i).env.get j =
      if envSource j = i then internalClock s.params (s.env.get j) else s.env.get j :=
  fireTrig_env i (s.setOsc i (oscFlip s.thresh (s.oscAt i))) j

theorem crossings_frame (i : Chan) (s : State) :
    sameDevice s (s.crossings i) ∧ (s.crossings i).amp = s.amp :=
  whileDo_keeps (P := fun t : State => sameDevice s t ∧ t.amp = s.amp)
    (fun t h => ⟨sameDevice_trans h.1 (crossing_frame i t).1, (crossing_frame i t).2.trans h.2⟩) _
    ⟨sameDevice_refl s, rfl⟩

theorem oscTick_frame (i : Chan) (s : State) :
    sameDevice s (s.oscTick i) ∧ (s.oscTick i).amp = s.amp := by
  unfold State.oscTick
  split
  · exact ⟨sameDevice_refl s, rfl⟩
  · have h := crossings_frame i (s.setOsc i { s.oscAt i with counter := (s.oscAt i).counter + (s.oscAt i).add })
    exact ⟨sameDevice_trans (sameDevice_setOsc s i _) h.1, h.2⟩

/-! ### Amplifier ticks, noise ticks and sub-ticks -/

theorem ampTick_frame (i : Chan) (s : State) : sameDevice s (s.ampTick i) :=
  sameDevice_trans (oscTick_frame i s).1 (sameDevice_setAmp _ i _)

@[simp] theorem ampTick_osc (i : Chan) (s : State) : (s.ampTick i).osc = (s.oscTick i).osc := rfl

@[simp] theorem ampTick_noise (i : Chan) (s : State) : (s.ampTick i).noise = (s.oscTick i).noise := rfl

@[simp] theorem ampTick_env (i : Chan) (s : State) : (s.ampTick i).env = (s.oscTick i).env := rfl

/-- An amplifier's tick writes its own intermediate and no other field of any amplifier. -/
theorem ampTick_amp (i : Chan) (s : State) (k : Chan) :
    (s.ampTick i).amp.get k =
      { s.amp.get k with
        inter :=
          if k = i then
            interOf (mixMode (s.amp.get i)) ((s.oscTick i).osc.get i).level
              (noiseBit ((s.oscTick i).noise.get (noiseOf i)))
          else (s.amp.get k).inter } := by
  simp only [State.ampTick, State.setAmp_amp, State.ampAt, State.oscAt, State.noiseAt,
    (oscTick_frame i s).2, Six.get_set]
  split
  · next h => subst h; rfl
  · rfl

theorem noiseTickAt_frame (j : Gen) (s : State) :
    sameDevice s (s.noiseTickAt j) ∧ (s.noiseTickAt j).osc = s.osc ∧ (s.noiseTickAt j).env = s.env ∧
      (s.noiseTickAt j).amp = s.amp :=
  ⟨sameDevice_setNoise s j _, rfl, rfl, rfl⟩

theorem mixChannel_frame (i : Chan) (m : Mix) : sameDevice m.st (mixChannel i m).st := ampTick_frame i m.st

/-- A property that every channel's round keeps holds after the six rounds. -/
theorem channels_keep {P : Mix → Prop} (h : ∀ i m, P m → P (mixChannel i m)) {m : Mix} (hm : P m) :
    P (channels.foldl (fun m i => mixChannel i m) m) := by
  simp only [channels, List.foldl_cons, List.foldl_nil]
  exact h 5 _ (h 4 _ (h 3 _ (h 2 _ (h 1 _ (h 0 _ hm)))))

/-- A property that a noise tick and every channel's round keep is kept by a sub-tick. -/
theorem subTick_keeps {P : Mix → Prop} (hn : ∀ m j, P m → P { m with st := m.st.noiseTickAt j })
    (hc : ∀ i m, P m → P (mixChannel i m)) {m : Mix} (hm : P m) : P (subTick m) :=
  channels_keep hc (hn { m with st := m.st.noiseTickAt 0 } 1 (hn m 0 hm))

/-- A property that a noise tick and every channel's round keep holds after the sub-ticks of a SAMPLE. -/
theorem subTicks_keeps {P : Mix → Prop} (hn : ∀ m j, P m → P { m with st := m.st.noiseTickAt j })
    (hc : ∀ i m, P m → P (mixChannel i m)) {s : State} (hs : P { st := s, sumL := 0, sumR := 0 }) :
    P s.subTicks :=
  iter_keeps (fun _ h => subTick_keeps hn hc h) _ hs

theorem subTick_frame (m : Mix) : sameDevice m.st (subTick m).st :=
  subTick_keeps (P := fun n => sameDevice m.st n.st)
    (fun n j h => sameDevice_trans h (noiseTickAt_frame j n.st).1)
    (fun i n h => sameDevice_trans h (mixChannel_frame i n)) (sameDevice_refl m.st)

theorem subTicks_frame (s : State) : sameDevice s s.subTicks.st :=
  iter_keeps (P := fun n : Mix => sameDevice s n.st)
    (fun n h => sameDevice_trans h (subTick_frame n)) _ (sameDevice_refl s)

end Sys2Proof.Machine
end

