-- ==== Sys2Proof/Laws/Frequency.lean ====
section
/-! SUPPORT. What an oscillator's operations can do: which fields the pending values and a crossing touch, and
the loop of a tick as an iteration of crossings. -/

namespace Sys2Proof.Machine

/-- What waits is applied without touching counter, sync flag and level, and is kept as written. -/
theorem oscApplyIfNew_keeps (rom : BitVec 3 → Byte → Nat) (o : Osc) :
    (oscApplyIfNew rom o).counter = o.counter ∧ (oscApplyIfNew rom o).sync = o.sync ∧
      (oscApplyIfNew rom o).level = o.level ∧ (oscApplyIfNew rom o).nextOct = o.nextOct ∧
      (oscApplyIfNew rom o).nextOff = o.nextOff := by
  unfold oscApplyIfNew oscApplyPending oscReload
  split
  · simp only
    split <;> exact ⟨rfl, rfl, rfl, rfl, rfl⟩
  · exact ⟨rfl, rfl, rfl, rfl, rfl⟩

/-- Applying what waits commutes with setting counter and level. -/
theorem oscApplyIfNew_with (rom : BitVec 3 → Byte → Nat) (o : Osc) (c : Nat) (l : Level) :
    oscApplyIfNew rom { o with counter := c, level := l } =
      { oscApplyIfNew rom o with counter := c, level := l } := by
  unfold oscApplyIfNew oscApplyPending oscReload
  dsimp only
  split
  · split <;> rfl
  · rfl

/-- Applying what waits a third time does nothing. -/
theorem oscApplyIfNew_thrice (rom : BitVec 3 → Byte → Nat) (o : Osc) :
    oscApplyIfNew rom (oscApplyIfNew rom (oscApplyIfNew rom o)) =
      oscApplyIfNew rom (oscApplyIfNew rom o) := by
  rcases o with ⟨c, a, co, cf, no, nf, nd, ow, ig, sy, l⟩
  cases nd <;> cases ig <;> rfl

/-- The crossing's own counter. -/
theorem crossing_counter (i : Chan) (s : State) :
    ((s.crossing i).osc.get i).counter = (s.osc.get i).counter - s.thresh := by
  rw [crossing_osc_self, (oscApplyIfNew_keeps _ _).1, oscFlip]

/-- The loop of an oscillator tick is one crossing per threshold in the counter, which keeps the
remainder. -/
theorem crossings_eq (i : Chan) (s : State) (h : 0 < s.thresh) :
    s.crossings i = iter ((s.osc.get i).counter / s.thresh) (State.crossing i) s ∧
      ((s.crossings i).osc.get i).counter = (s.osc.get i).counter % s.thresh := by
  obtain ⟨h1, h2⟩ := whileDo_count (P := fun t : State => t.thresh = s.thresh)
    (c := fun t => decide (t.thresh ≤ (t.oscAt i).counter)) (f := State.crossing i)
    (count := fun t => (t.osc.get i).counter) h
    (fun t ht => by simp only [State.oscAt, ht])
    (fun t ht => (thresh_of_sameDevice (crossing_frame i t).1).trans ht)
    (fun t ht => by rw [crossing_counter, ht]) (a := s) rfl
  have h3 : s.crossings i = iter ((s.osc.get i).counter / s.thresh) (State.crossing i) s := h1
  exact ⟨h3, by rw [h3]; exact h2⟩

/-- A tick of an oscillator keeps the other oscillators, in every state. -/
theorem oscTick_osc_ne (s : State) {i c : Chan} (hc : c ≠ i) : (s.oscTick i).osc.get c = s.osc.get c := by
  unfold State.oscTick
  split
  · rfl
  · exact whileDo_keeps (P := fun t : State => t.osc.get c = s.osc.get c) (f := State.crossing i)
      (fun t ht => (crossing_osc_ne t hc).trans ht) _ (by simp [Six.get_set_ne _ _ hc])

/-- A property of one oscillator that adding to the counter and crossing keep is kept by its tick. -/
theorem oscTick_keeps {P : Osc → Prop} (s : State) (i : Chan)
    (hadd : ∀ o c, o.sync = false → P o → P { o with counter := c })
    (hcross : ∀ o, o.sync = false → P o → P (oscApplyIfNew s.rom (oscFlip s.thresh o)))
    (h : P (s.osc.get i)) : P ((s.oscTick i).osc.get i) := by
  unfold State.oscTick
  split
  · exact h
  · next hs =>
    have hs' : (s.osc.get i).sync = false := by simpa using hs
    have := whileDo_keeps
      (P := fun t : State => sameDevice s t ∧ (t.osc.get i).sync = false ∧ P (t.osc.get i))
      (f := State.crossing i) (c := fun t => decide (t.thresh ≤ (t.oscAt i).counter))
      (fun t ht => by
        obtain ⟨hd, hsy, hp⟩ := ht
        refine ⟨sameDevice_trans hd (crossing_frame i t).1, ?_, ?_⟩
        · rw [crossing_osc_self, (oscApplyIfNew_keeps _ _).2.1]; exact hsy
        · rw [crossing_osc_self, rom_of_sameDevice hd, thresh_of_sameDevice hd]
          exact hcross _ hsy hp)
    exact (this _ ⟨sameDevice_setOsc s i _, by simpa using hs', by simpa using hadd _ _ hs' h⟩).2.2

/-- An oscillator tick reaches a noise generator only through its trigger: a property the trigger keeps
holds after it. -/
theorem oscTick_noise_keeps {P : Noise → Prop} (hP : ∀ n, P n → P (noiseTrigger n)) (s : State) (i : Chan)
    (j : Gen) (h : P (s.noise.get j)) : P ((s.oscTick i).noise.get j) := by
  unfold State.oscTick
  split
  · exact h
  · refine whileDo_keeps (P := fun t : State => P (t.noise.get j)) (f := State.crossing i) (fun t ht => ?_) _ h
    rw [crossing_noise]
    split
    · exact hP _ ht
    · exact ht

/-- An oscillator tick reaches an envelope generator only through its internal clock: a property the clock
keeps holds after it. -/
theorem oscTick_env_keeps {P : Env → Prop} (s : State) (hP : ∀ e, P e → P (internalClock s.params e))
    (i : Chan) (j : Gen) (h : P (s.env.get j)) : P ((s.oscTick i).env.get j) := by
  unfold State.oscTick
  split
  · exact h
  · refine (whileDo_keeps (P := fun t : State => sameDevice s t ∧ P (t.env.get j)) (f := State.crossing i)
      (fun t ht => ⟨sameDevice_trans ht.1 (crossing_frame i t).1, ?_⟩) _
      ⟨sameDevice_setOsc s i _, h⟩).2
    rw [crossing_env]
    split
    · rw [params_of_sameDevice ht.1]; exact hP _ ht.2
    · exact ht.2

end Sys2Proof.Machine
end

