-- ==== Sys2Proof/Laws/Bus.lean ====
section
/-! SUPPORT. What a bus operation can do: an address write, the register write a data word runs, and the meaning
of every data write as a register write. -/

namespace Sys2Proof.Machine

/-! ### The fields of a packed byte -/

@[simp] theorem lowOctave_packOctaves (u v : BitVec 3) : lowOctave (packOctaves u v) = u := by
  revert u v; decide

@[simp] theorem highOctave_packOctaves (u v : BitVec 3) : highOctave (packOctaves u v) = v := by
  revert u v; decide

@[simp] theorem lowMode_packModes (a b : BitVec 2) : lowMode (packModes a b) = a := by
  revert a b; decide

@[simp] theorem highMode_packModes (a b : BitVec 2) : highMode (packModes a b) = b := by
  revert a b; decide

@[simp] theorem channelBits_zeroExtend (t : BitVec 6) : channelBits (t.zeroExtend 8) = t := by
  revert t; decide

@[simp] theorem bitOf_packCtrl_enable (en sy : Bool) : bitOf (packCtrl en sy) 0 = en := by
  revert en sy; decide

@[simp] theorem bitOf_packCtrl_sync (en sy : Bool) : bitOf (packCtrl en sy) 1 = sy := by
  revert en sy; decide

/-! ### An address write -/

/-- An address write sets the latch, clocks at most one envelope generator, and keeps all else. -/
theorem addressWrite_spec (reg : Byte) (s : State) :
    (s.addressWrite reg).latch = regOfByte reg ∧
      (s.addressWrite reg).env =
        (if regOfByte reg = 24 then s.env.set 0 (externalClock s.params (s.env.get 0))
         else if regOfByte reg = 25 then s.env.set 1 (externalClock s.params (s.env.get 1)) else s.env) ∧
      (s.addressWrite reg).osc = s.osc ∧ (s.addressWrite reg).noise = s.noise ∧
      (s.addressWrite reg).amp = s.amp ∧ (s.addressWrite reg).enable = s.enable ∧
      (s.addressWrite reg).gsync = s.gsync ∧ (s.addressWrite reg).zL = s.zL ∧
      (s.addressWrite reg).zR = s.zR ∧ sameStream s (s.addressWrite reg) := by
  unfold State.addressWrite State.externalClockAt
  dsimp only
  split
  · exact ⟨rfl, rfl, rfl, rfl, rfl, rfl, rfl, rfl, rfl, rfl, rfl, rfl, rfl⟩
  · split <;> exact ⟨rfl, rfl, rfl, rfl, rfl, rfl, rfl, rfl, rfl, rfl, rfl, rfl, rfl⟩

/-! ### A register write -/

/-- A register write keeps the latch, the filter, the configuration, the parameters, the output stream and
the host's requests. -/
theorem regWrite_frame (a : BitVec 5) (d : Byte) (s : State) :
    (s.regWrite a d).latch = s.latch ∧ (s.regWrite a d).zL = s.zL ∧ (s.regWrite a d).zR = s.zR ∧
      sameStream s (s.regWrite a d) := by
  unfold State.regWrite
  split <;> exact ⟨rfl, rfl, rfl, rfl, rfl, rfl, rfl⟩

/-- Everything a register write can be: one register's effect, or none. -/
theorem regWrite_cases (a : BitVec 5) (d : Byte) (s : State) :
    s.regWrite a d = s ∨
    (∃ i l r, s.regWrite a d = s.setAmpLevel i l r) ∨ (∃ i v, s.regWrite a d = s.setOffset i v) ∨
    (∃ i j u v, s.regWrite a d = s.setOctaves i j u v) ∨ (∃ t, s.regWrite a d = s.setToneMixers t) ∨
    (∃ n, s.regWrite a d = s.setNoiseMixers n) ∨ (∃ m n, s.regWrite a d = s.setSources m n) ∨
    (∃ j, s.regWrite a d = s.setControl j d) ∨ ∃ en sy, s.regWrite a d = s.globalControl en sy := by
  unfold State.regWrite
  split
  · exact .inr (.inl ⟨_, _, _, rfl⟩)
  · exact .inr (.inl ⟨_, _, _, rfl⟩)
  · exact .inr (.inl ⟨_, _, _, rfl⟩)
  · exact .inr (.inl ⟨_, _, _, rfl⟩)
  · exact .inr (.inl ⟨_, _, _, rfl⟩)
  · exact .inr (.inl ⟨_, _, _, rfl⟩)
  · exact .inr (.inr (.inl ⟨_, _, rfl⟩))
  · exact .inr (.inr (.inl ⟨_, _, rfl⟩))
  · exact .inr (.inr (.inl ⟨_, _, rfl⟩))
  · exact .inr (.inr (.inl ⟨_, _, rfl⟩))
  · exact .inr (.inr (.inl ⟨_, _, rfl⟩))
  · exact .inr (.inr (.inl ⟨_, _, rfl⟩))
  · exact .inr (.inr (.inr (.inl ⟨_, _, _, _, rfl⟩)))
  · exact .inr (.inr (.inr (.inl ⟨_, _, _, _, rfl⟩)))
  · exact .inr (.inr (.inr (.inl ⟨_, _, _, _, rfl⟩)))
  · exact .inr (.inr (.inr (.inr (.inl ⟨_, rfl⟩))))
  · exact .inr (.inr (.inr (.inr (.inr (.inl ⟨_, rfl⟩)))))
  · exact .inr (.inr (.inr (.inr (.inr (.inr (.inl ⟨_, _, rfl⟩))))))
  · exact .inr (.inr (.inr (.inr (.inr (.inr (.inr (.inl ⟨_, rfl⟩)))))))
  · exact .inr (.inr (.inr (.inr (.inr (.inr (.inr (.inl ⟨_, rfl⟩)))))))
  · exact .inr (.inr (.inr (.inr (.inr (.inr (.inr (.inr ⟨_, _, rfl⟩)))))))
  · exact .inl rfl

/-- A register address is one of 32 numerals. -/
theorem reg_cases {P : BitVec 5 → Prop} (h : ∀ n : Fin 32, P (BitVec.ofFin n)) (l : BitVec 5) : P l :=
  h l.toFin

/-- The meaning of the data write a latch selects is the register write of that latch. -/
theorem exec_decodeData (l : BitVec 5) (d : Byte) (s : State) :
    exec (decodeData l d) s = .next (s.regWrite l d) := by
  refine reg_cases (P := fun l => exec (decodeData l d) s = .next (s.regWrite l d)) (fun n => ?_) l
  fin_cases n <;> rfl

end Sys2Proof.Machine
end

