-- ==== Sys2Proof/Laws/PerInstr.lean ====
section
/-! SUPPORT. A statement about every operation: its encoding matches its own row of the opcode table. -/

namespace Sys2Proof.Laws.Row

/-- The encoding of `i` matches a row of spec/opcode_table.json with the mnemonic of `i`. -/
def Statement (i : Instr) : Prop :=
  match encode i with
  | .dk key => ∃ r ∈ keyRows, r.mnemonic = i.mnemonic ∧ r.matchesKey key = true
  | .host op _ => (i.mnemonic, op) ∈ hostRows

/-- A data key under the mask of the WD rows is the key of its latch. -/
theorem dataKey_mask (l : BitVec 5) (d : Byte) : dataKey l d &&& 0x3F00 = dataKey l 0 := by
  have h : (l ++ (0#1 ++ d)) &&& (31#5 ++ (1#1 ++ 0#8)) = l ++ (0#1 ++ 0#8) := by
    rw [BitVec.and_append, BitVec.and_append, BitVec.and_zero, BitVec.zero_and,
      show l &&& 31#5 = l from BitVec.and_allOnes]
  exact h

/-- A WD row matches every data key of its latch. -/
theorem row_matches (m : String) (l : BitVec 5) (d : Byte) :
    (KeyRow.mk m (dataKey l 0) 0x3F00).matchesKey (dataKey l d) = true :=
  beq_iff_eq.2 (dataKey_mask l d)

/-- A latch's row in the table gives the statement of its data writes. -/
theorem of_row {m : String} {l : BitVec 5} (h : KeyRow.mk m (dataKey l 0) 0x3F00 ∈ keyRows) (d : Byte) :
    ∃ r ∈ keyRows, r.mnemonic = m ∧ r.matchesKey (dataKey l d) = true :=
  ⟨_, h, rfl, row_matches m l d⟩

theorem wa (reg : Byte) : Statement (.wa reg) := by
  refine ⟨⟨"WA", 0x0100, 0x0100⟩, by decide, rfl, ?_⟩
  have h : (0#5 ++ (1#1 ++ reg)) &&& (0#5 ++ (1#1 ++ 0#8)) = 0#5 ++ (1#1 ++ 0#8) := by
    rw [BitVec.and_append, BitVec.and_append, BitVec.and_zero, show reg &&& 0#8 = 0#8 from BitVec.and_zero]
    rfl
  exact beq_iff_eq.2 h

theorem wdAmp0 (volL volR : BitVec 4) : Statement (.wdAmp0 volL volR) := of_row (m := "WD_AMP0") (l := 0) (by decide) _

theorem wdAmp1 (volL volR : BitVec 4) : Statement (.wdAmp1 volL volR) := of_row (m := "WD_AMP1") (l := 1) (by decide) _

theorem wdAmp2 (volL volR : BitVec 4) : Statement (.wdAmp2 volL volR) := of_row (m := "WD_AMP2") (l := 2) (by decide) _

theorem wdAmp3 (volL volR : BitVec 4) : Statement (.wdAmp3 volL volR) := of_row (m := "WD_AMP3") (l := 3) (by decide) _

theorem wdAmp4 (volL volR : BitVec 4) : Statement (.wdAmp4 volL volR) := of_row (m := "WD_AMP4") (l := 4) (by decide) _

theorem wdAmp5 (volL volR : BitVec 4) : Statement (.wdAmp5 volL volR) := of_row (m := "WD_AMP5") (l := 5) (by decide) _

theorem wdFreq0 (offset : Byte) : Statement (.wdFreq0 offset) := of_row (m := "WD_FREQ0") (l := 8) (by decide) _

theorem wdFreq1 (offset : Byte) : Statement (.wdFreq1 offset) := of_row (m := "WD_FREQ1") (l := 9) (by decide) _

theorem wdFreq2 (offset : Byte) : Statement (.wdFreq2 offset) := of_row (m := "WD_FREQ2") (l := 10) (by decide) _

theorem wdFreq3 (offset : Byte) : Statement (.wdFreq3 offset) := of_row (m := "WD_FREQ3") (l := 11) (by decide) _

theorem wdFreq4 (offset : Byte) : Statement (.wdFreq4 offset) := of_row (m := "WD_FREQ4") (l := 12) (by decide) _

theorem wdFreq5 (offset : Byte) : Statement (.wdFreq5 offset) := of_row (m := "WD_FREQ5") (l := 13) (by decide) _

theorem wdOct01 (octA octB : BitVec 3) : Statement (.wdOct01 octA octB) := of_row (m := "WD_OCT01") (l := 16) (by decide) _

theorem wdOct23 (octA octB : BitVec 3) : Statement (.wdOct23 octA octB) := of_row (m := "WD_OCT23") (l := 17) (by decide) _

theorem wdOct45 (octA octB : BitVec 3) : Statement (.wdOct45 octA octB) := of_row (m := "WD_OCT45") (l := 18) (by decide) _

theorem wdToneEn (t : BitVec 6) : Statement (.wdToneEn t) := of_row (m := "WD_TONEEN") (l := 20) (by decide) _

theorem wdNoiseEn (n : BitVec 6) : Statement (.wdNoiseEn n) := of_row (m := "WD_NOISEEN") (l := 21) (by decide) _

theorem wdNoiseMode (modeA modeB : BitVec 2) : Statement (.wdNoiseMode modeA modeB) :=
  of_row (m := "WD_NOISEMODE") (l := 22) (by decide) _

theorem wdEnvA (ctrl : Byte) : Statement (.wdEnvA ctrl) := of_row (m := "WD_ENVA") (l := 24) (by decide) _

theorem wdEnvB (ctrl : Byte) : Statement (.wdEnvB ctrl) := of_row (m := "WD_ENVB") (l := 25) (by decide) _

theorem wdCtrl (en sy : Bool) : Statement (.wdCtrl en sy) := of_row (m := "WD_CTRL") (l := 28) (by decide) _

theorem wdNop6 : Statement .wdNop6 := of_row (m := "WD_NOP_6") (l := 6) (by decide) _

theorem wdNop7 : Statement .wdNop7 := of_row (m := "WD_NOP_7") (l := 7) (by decide) _

theorem wdNop14 : Statement .wdNop14 := of_row (m := "WD_NOP_14") (l := 14) (by decide) _

theorem wdNop15 : Statement .wdNop15 := of_row (m := "WD_NOP_15") (l := 15) (by decide) _

theorem wdNop19 : Statement .wdNop19 := of_row (m := "WD_NOP_19") (l := 19) (by decide) _

theorem wdNop23 : Statement .wdNop23 := of_row (m := "WD_NOP_23") (l := 23) (by decide) _

theorem wdNop26 : Statement .wdNop26 := of_row (m := "WD_NOP_26") (l := 26) (by decide) _

theorem wdNop27 : Statement .wdNop27 := of_row (m := "WD_NOP_27") (l := 27) (by decide) _

theorem wdNop29 : Statement .wdNop29 := of_row (m := "WD_NOP_29") (l := 29) (by decide) _

theorem wdNop30 : Statement .wdNop30 := of_row (m := "WD_NOP_30") (l := 30) (by decide) _

theorem wdNop31 : Statement .wdNop31 := of_row (m := "WD_NOP_31") (l := 31) (by decide) _

theorem sample : Statement .sample := by simp [Statement, encode, Instr.mnemonic, hostRows]

theorem gen (count : Nat) : Statement (.gen count) := by simp [Statement, encode, Instr.mnemonic, hostRows]

theorem clear : Statement .clear := by simp [Statement, encode, Instr.mnemonic, hostRows]

theorem setClock (hz : Nat) : Statement (.setClock hz) := by simp [Statement, encode, Instr.mnemonic, hostRows]

theorem setRate (hz : Nat) : Statement (.setRate hz) := by simp [Statement, encode, Instr.mnemonic, hostRows]

theorem setOversample (n : Nat) : Statement (.setOversample n) := by simp [Statement, encode, Instr.mnemonic, hostRows]

end Sys2Proof.Laws.Row
end

