-- ==== Sys2Proof/Laws/Pipeline.lean ====
section
/-! SUPPORT. What the sample pipeline can do, and one case lemma for every operation: an answer of `exec` is an
address write, a register write, samples, or a configuration write. -/

namespace Sys2Proof.Machine

/-! ### Levels and outputs -/

/-- An entry of ENV_AMP is at most 15, for a level of at most 15. -/
theorem envAmp_le (p : Params) (v : BitVec 4) (e : Nat) (r : Bool) (he : e ≤ 15) : envAmp p v e r ≤ 15 := by
  unfold envAmp
  split
  · have hv := v.isLt
    have h7 : v.toNat >>> 1 ≤ 7 := by rw [Nat.shiftRight_eq_div_pow]; omega
    have : 2 * (v.toNat >>> 1) * e ≤ 14 * 15 := Nat.mul_le_mul (by omega) he
    omega
  · exact Nat.lt_succ_iff.1 (BitVec.isLt _)

/-- A contour level is at most 15. -/
theorem contourLevel_le (e : EnvEntry) (r : Bool) (ph : Fin 2) (q : BitVec 4) : contourLevel e r ph q ≤ 15 :=
  Nat.lt_succ_iff.1 (BitVec.isLt _)

theorem envLeft_le (p : Params) (e : Env) : envLeft p e ≤ 15 := by
  unfold envLeft; split
  · omega
  · exact contourLevel_le _ _ _ _

theorem envRight_le (p : Params) (e : Env) : envRight p e ≤ 15 := by
  unfold envRight; split
  · omega
  · split
    · unfold maxLevel; split <;> omega
    · exact envLeft_le p e

theorem ampAmplitudes_le (p : Params) (a : Amp) (e : Option Env) :
    (ampAmplitudes p a e).1 ≤ 15 ∧ (ampAmplitudes p a e).2 ≤ 15 := by
  have hl : a.volL.toNat ≤ 15 := Nat.lt_succ_iff.1 a.volL.isLt
  have hr : a.volR.toNat ≤ 15 := Nat.lt_succ_iff.1 a.volR.isLt
  unfold ampAmplitudes
  split
  · split
    · exact ⟨envAmp_le _ _ _ _ (envLeft_le _ _), envAmp_le _ _ _ _ (envRight_le _ _)⟩
    · exact ⟨hl, hr⟩
  · exact ⟨hl, hr⟩

/-- An amplifier's output is at most 30 a side. -/
theorem ampOut_le (i : Chan) (s : State) : (s.ampOut i).1 ≤ 30 ∧ (s.ampOut i).2 ≤ 30 := by
  have h := ampAmplitudes_le s.params (s.ampAt i) ((envOf i).map s.envAt)
  have hi : (s.ampAt i).inter.val ≤ 2 := Nat.lt_succ_iff.1 (s.ampAt i).inter.isLt
  unfold State.ampOut
  split
  · exact ⟨by decide, by decide⟩
  · exact ⟨Nat.mul_le_mul h.1 hi, Nat.mul_le_mul h.2 hi⟩

/-- A muted or synced amplifier's output is zero. -/
theorem ampOut_of_silent (i : Chan) (s : State) (h : (s.amp.get i).mute = true ∨ (s.amp.get i).sync = true) :
    s.ampOut i = (0, 0) := by
  unfold State.ampOut
  rcases h with h | h <;> simp [h]

/-! ### Sub-ticks -/

/-- A sub-tick adds at most 180 to each sum. -/
theorem subTick_sums_le (m : Mix) :
    (subTick m).sumL ≤ m.sumL + 180 ∧ (subTick m).sumR ≤ m.sumR + 180 := by
  have hc : ∀ (i : Chan) (n : Mix),
      (mixChannel i n).sumL ≤ n.sumL + 30 ∧ (mixChannel i n).sumR ≤ n.sumR + 30 := fun i n =>
    ⟨Nat.add_le_add_left (ampOut_le i _).1 _, Nat.add_le_add_left (ampOut_le i _).2 _⟩
  unfold subTick
  simp only [channels, List.foldl_cons, List.foldl_nil]
  generalize hm : ({ m with st := m.st.noiseTicks } : Mix) = m0
  have e : m0.sumL = m.sumL ∧ m0.sumR = m.sumR := by subst hm; exact ⟨rfl, rfl⟩
  have h0 := hc 0 m0
  have h1 := hc 1 (mixChannel 0 m0)
  have h2 := hc 2 (mixChannel 1 (mixChannel 0 m0))
  have h3 := hc 3 (mixChannel 2 (mixChannel 1 (mixChannel 0 m0)))
  have h4 := hc 4 (mixChannel 3 (mixChannel 2 (mixChannel 1 (mixChannel 0 m0))))
  have h5 := hc 5 (mixChannel 4 (mixChannel 3 (mixChannel 2 (mixChannel 1 (mixChannel 0 m0)))))
  omega

/-! ### A SAMPLE -/

/-- The device-level fields a SAMPLE keeps; its noise, oscillators, envelopes and amplifiers are those of its
sub-ticks. -/
theorem sampleOnce_spec (s : State) :
    s.sampleOnce.osc = s.subTicks.st.osc ∧ s.sampleOnce.noise = s.subTicks.st.noise ∧
      s.sampleOnce.env = s.subTicks.st.env ∧ s.sampleOnce.amp = s.subTicks.st.amp ∧
      s.sampleOnce.latch = s.latch ∧ s.sampleOnce.enable = s.enable ∧ s.sampleOnce.gsync = s.gsync ∧
      s.sampleOnce.cfg = s.cfg ∧ s.sampleOnce.params = s.params ∧ s.sampleOnce.pending = s.pending ∧
      s.sampleOnce.zL = (hpf s.params (preFilter s.params s.cfg s.subTicks.sumL) s.zL).2 ∧
      s.sampleOnce.zR = (hpf s.params (preFilter s.params s.cfg s.subTicks.sumR) s.zR).2 ∧
      s.sampleOnce.out = s.out ++
        [{ left := clamp16 (hpf s.params (preFilter s.params s.cfg s.subTicks.sumL) s.zL).1
           right := clamp16 (hpf s.params (preFilter s.params s.cfg s.subTicks.sumR) s.zR).1 }] := by
  obtain ⟨h1, h2, h3, h4, h5, h6, h7, h8, h9⟩ := subTicks_frame s
  unfold State.sampleOnce finishSample
  dsimp only
  rw [h4, h5, h6, h7, h8]
  exact ⟨rfl, rfl, rfl, rfl, h1, h2, h3, rfl, rfl, h9, rfl, rfl, rfl⟩

/-! ### Every operation -/

/-- Everything an operation can answer: a next state by one of the rules of the bus, the pipeline or the
configuration, or the refusal of a configuration value. -/
theorem exec_cases (i : Instr) (s : State) :
    (∃ reg, i = .wa reg ∧ exec i s = .next (s.addressWrite reg)) ∨
    (∃ l d, i = decodeData l d ∧ exec i s = .next (s.regWrite l d)) ∨
    (∃ n, (i = .sample ∧ n = 1 ∨ i = .gen n) ∧ exec i s = .next (iter n State.sampleOnce s)) ∨
    (i = .clear ∧ exec i s = .next s.clearAll) ∨
    (∃ hz, i = .setClock hz ∧ exec i s =
      if clockLegal hz then .next (State.reloadAll { s with cfg := { s.cfg with clockHz := hz } })
      else .refused .configOutOfRange) ∨
    (∃ hz, i = .setRate hz ∧ exec i s =
      if rateLegal hz then .next { s with cfg := { s.cfg with sampleHz := hz } }
      else .refused .configOutOfRange) ∨
    (∃ n, i = .setOversample n ∧ exec i s =
      if oversampleLegal n then .next { s with cfg := { s.cfg with oversample := n } }
      else .refused .configOutOfRange) := by
  have wd : ∀ l d, i = decodeData l d → (∃ l d, i = decodeData l d ∧ exec i s = .next (s.regWrite l d)) :=
    fun l d h => ⟨l, d, h, by rw [h]; exact exec_decodeData l d s⟩
  cases i with
  | wa reg => exact .inl ⟨reg, rfl, rfl⟩
  | wdAmp0 a b => exact .inr (.inl (wd 0 (packNibbles b a) (by simp [decodeData])))
  | wdAmp1 a b => exact .inr (.inl (wd 1 (packNibbles b a) (by simp [decodeData])))
  | wdAmp2 a b => exact .inr (.inl (wd 2 (packNibbles b a) (by simp [decodeData])))
  | wdAmp3 a b => exact .inr (.inl (wd 3 (packNibbles b a) (by simp [decodeData])))
  | wdAmp4 a b => exact .inr (.inl (wd 4 (packNibbles b a) (by simp [decodeData])))
  | wdAmp5 a b => exact .inr (.inl (wd 5 (packNibbles b a) (by simp [decodeData])))
  | wdFreq0 v => exact .inr (.inl (wd 8 v rfl))
  | wdFreq1 v => exact .inr (.inl (wd 9 v rfl))
  | wdFreq2 v => exact .inr (.inl (wd 10 v rfl))
  | wdFreq3 v => exact .inr (.inl (wd 11 v rfl))
  | wdFreq4 v => exact .inr (.inl (wd 12 v rfl))
  | wdFreq5 v => exact .inr (.inl (wd 13 v rfl))
  | wdOct01 a b => exact .inr (.inl (wd 16 (packOctaves a b) (by simp [decodeData])))
  | wdOct23 a b => exact .inr (.inl (wd 17 (packOctaves a b) (by simp [decodeData])))
  | wdOct45 a b => exact .inr (.inl (wd 18 (packOctaves a b) (by simp [decodeData])))
  | wdToneEn t => exact .inr (.inl (wd 20 (t.zeroExtend 8) (congrArg _ (channelBits_zeroExtend t).symm)))
  | wdNoiseEn t => exact .inr (.inl (wd 21 (t.zeroExtend 8) (congrArg _ (channelBits_zeroExtend t).symm)))
  | wdNoiseMode a b => exact .inr (.inl (wd 22 (packModes a b) (by simp [decodeData])))
  | wdEnvA b => exact .inr (.inl (wd 24 b rfl))
  | wdEnvB b => exact .inr (.inl (wd 25 b rfl))
  | wdCtrl en sy => exact .inr (.inl (wd 28 (packCtrl en sy) (by simp [decodeData])))
  | wdNop6 => exact .inr (.inl (wd 6 0 rfl))
  | wdNop7 => exact .inr (.inl (wd 7 0 rfl))
  | wdNop14 => exact .inr (.inl (wd 14 0 rfl))
  | wdNop15 => exact .inr (.inl (wd 15 0 rfl))
  | wdNop19 => exact .inr (.inl (wd 19 0 rfl))
  | wdNop23 => exact .inr (.inl (wd 23 0 rfl))
  | wdNop26 => exact .inr (.inl (wd 26 0 rfl))
  | wdNop27 => exact .inr (.inl (wd 27 0 rfl))
  | wdNop29 => exact .inr (.inl (wd 29 0 rfl))
  | wdNop30 => exact .inr (.inl (wd 30 0 rfl))
  | wdNop31 => exact .inr (.inl (wd 31 0 rfl))
  | sample => exact .inr (.inr (.inl ⟨1, .inl ⟨rfl, rfl⟩, rfl⟩))
  | gen n => exact .inr (.inr (.inl ⟨n, .inr rfl, rfl⟩))
  | clear => exact .inr (.inr (.inr (.inl ⟨rfl, rfl⟩)))
  | setClock hz => exact .inr (.inr (.inr (.inr (.inl ⟨hz, rfl, rfl⟩))))
  | setRate hz => exact .inr (.inr (.inr (.inr (.inr (.inl ⟨hz, rfl, rfl⟩)))))
  | setOversample n => exact .inr (.inr (.inr (.inr (.inr (.inr ⟨n, rfl, rfl⟩)))))

/-- A property that an address write and a register write keep is kept by CLEAR. -/
theorem clearAll_keeps {P : State → Prop} (hwa : ∀ reg s, P s → P (s.addressWrite reg))
    (hrw : ∀ a d s, P s → P (s.regWrite a d)) {s : State} (h : P s) : P s.clearAll := by
  have hwd : ∀ a d s, P s → P (s.writeAddressData a d) := fun a d s hs => hrw _ _ _ (hwa _ _ hs)
  have hfold : ∀ (l : List Byte) (s : State), P s → P (l.foldl (fun s a => s.writeAddressData a 0) s) := by
    intro l
    induction l with
    | nil => exact fun _ hs => hs
    | cons a l ih => exact fun s hs => ih _ (hwd a 0 s hs)
  unfold State.clearAll
  apply hwa
  apply hwd
  apply hfold
  apply hwd
  exact h

/-- A property that each rule of the bus, the pipeline and the configuration keeps is kept by every
operation. -/
theorem exec_keeps {P : State → Prop} (hwa : ∀ reg s, P s → P (s.addressWrite reg))
    (hrw : ∀ a d s, P s → P (s.regWrite a d)) (hsm : ∀ s : State, P s → P s.sampleOnce)
    (hck : ∀ hz s, clockLegal hz = true → P s →
      P (State.reloadAll { s with cfg := { s.cfg with clockHz := hz } }))
    (hrt : ∀ hz s, rateLegal hz = true → P s → P { s with cfg := { s.cfg with sampleHz := hz } })
    (hov : ∀ n s, oversampleLegal n = true → P s → P { s with cfg := { s.cfg with oversample := n } })
    {i : Instr} {s t : State} (h : exec i s = .next t) (hs : P s) : P t := by
  rcases exec_cases i s with ⟨_, -, e⟩ | ⟨_, _, -, e⟩ | ⟨n, -, e⟩ | ⟨-, e⟩ | ⟨hz, -, e⟩ | ⟨hz, -, e⟩ | ⟨n, -, e⟩ <;>
    rw [e] at h
  · cases h; exact hwa _ _ hs
  · cases h; exact hrw _ _ _ hs
  · cases h; exact iter_keeps hsm n hs
  · cases h; exact clearAll_keeps hwa hrw hs
  · split at h <;> cases h
    next hl => exact hck _ _ hl hs
  · split at h <;> cases h
    next hl => exact hrt _ _ hl hs
  · split at h <;> cases h
    next hl => exact hov _ _ hl hs

/-- A step that answers a next state ran one operation, or had no request to run. -/
theorem step_cases {s t : State} (h : step s = .next t) :
    s.pending = [] ∧ t = s ∨
      ∃ r rest i, s.pending = r :: rest ∧ operationOf s.latch r = .ok i ∧
        exec i { s with pending := rest } = .next t := by
  unfold step at h
  split at h
  · next hp => cases h; exact .inl ⟨hp, rfl⟩
  · next r rest hp =>
    split at h
    · cases h
    · next i hi => exact .inr ⟨r, rest, i, hp, hi, h⟩

end Sys2Proof.Machine
end

