-- ==== Sys2Proof/Tests/Slice0.lean ====
section
/-! SUPPORT. The model's own tests: words written out from the spec's encodings, single steps with the results
of the spec's examples and vectors (95_test_vectors.md), and for every obligation with hypotheses a state and
operands that meet them. -/

namespace Sys2Proof.Tests

open Sys2Proof Sys2Proof.Machine

/-! ### Small states -/

/-- The state an answer gives, or `s` where it gives none. -/
def nextOr (s : State) (r : Result) : State :=
  match r with
  | .next t => t
  | _ => s

/-- The refusal an answer is, none where it is not one. -/
def refusalOf (r : Result) : Option Refusal :=
  match r with
  | .refused e => some e
  | _ => none

/-- A data write of `d` to register `l`, decoded and executed. -/
def wrote (l : BitVec 5) (d : Byte) (s : State) : State := nextOr s (exec (decodeData l d) s)

/-- Power-on with one sub-tick in a frame. -/
def one : State := State.powerOn defaultParams { clockHz := 8000000, sampleHz := 44100, oversample := 0 }

/-- Power-on with one sub-tick in a frame, no filter and the given gain. -/
def flat (gain : Nat) : State :=
  State.powerOn { defaultParams with hpfEnable := false, gain := gain }
    { clockHz := 8000000, sampleHz := 44100, oversample := 0 }

/-- A running envelope generator on waveform `w` at position `q`, clocked from outside. -/
def running (w : BitVec 3) (q : BitVec 4) : Env :=
  { envPowerOn with enabled := true, waveform := w, extClock := true, ended := false, ready := false, pos := q }

/-- An oscillator with a high level at (0, 0) and the default clock. -/
def highOsc : Osc := { oscPowerOn defaultParams 8000000 with level := .high }

/-- An amplifier unmuted, at full volume, tone on, with intermediate 2. -/
def loud : Amp := { ampPowerOn with volL := 15, volR := 15, toneEn := true, mute := false, inter := 2 }

/-- A state in global sync, with its copies. -/
def synced : State := one.globalControl false true

/-- A state with the output enabled, with its copies. -/
def enabled : State := one.globalControl true false

/-! ### Well-formedness -/

/-- GEN's format holds counts up to 2^32 - 1 (30_encoding.md R82). -/
theorem test_wellFormed_gen_last : Instr.wellFormed (.gen (2 ^ 32 - 1)) = true := by decide

/-- The ill-formed term of the one check: a GEN count of 2^32. -/
theorem test_illFormed_gen : Instr.wellFormed (.gen (2 ^ 32)) = false := by decide

/-- A configuration value out of its range is well-formed: its operation refuses it when it runs. -/
theorem test_wellFormed_setOversample : Instr.wellFormed (.setOversample 9) = true := by decide

/-! ### Decoding: words written out from 30_encoding.md R80 to R83, bits 13:9 the latch, 8 A0, 7:0 the byte -/

theorem test_decode_wa : decodeTableWord 16 0b00000_1_00011000 = some (.wa 24) := by decide

theorem test_decode_wa_any_latch : decodeTableWord 16 0b11100_1_11111111 = some (.wa 0xFF) := by decide

theorem test_decode_amp :
    decodeTableWord 16 0b00000_0_00001111 = some (.wdAmp0 15 0) ∧
    decodeTableWord 16 0b00001_0_11110000 = some (.wdAmp1 0 15) ∧
    decodeTableWord 16 0b00010_0_01010011 = some (.wdAmp2 3 5) ∧
    decodeTableWord 16 0b00011_0_10001000 = some (.wdAmp3 8 8) ∧
    decodeTableWord 16 0b00100_0_00000001 = some (.wdAmp4 1 0) ∧
    decodeTableWord 16 0b00101_0_00100001 = some (.wdAmp5 1 2) := by decide

theorem test_decode_freq :
    decodeTableWord 16 0b01000_0_01100100 = some (.wdFreq0 100) ∧
    decodeTableWord 16 0b01001_0_11111111 = some (.wdFreq1 255) ∧
    decodeTableWord 16 0b01010_0_00000000 = some (.wdFreq2 0) ∧
    decodeTableWord 16 0b01011_0_11001000 = some (.wdFreq3 200) ∧
    decodeTableWord 16 0b01100_0_00000001 = some (.wdFreq4 1) ∧
    decodeTableWord 16 0b01101_0_10000000 = some (.wdFreq5 128) := by decide

theorem test_decode_oct :
    decodeTableWord 16 0b10000_0_01000011 = some (.wdOct01 3 4) ∧
    decodeTableWord 16 0b10001_0_01110000 = some (.wdOct23 0 7) ∧
    decodeTableWord 16 0b10010_0_10001111 = some (.wdOct45 7 0) := by decide

theorem test_decode_mixer :
    decodeTableWord 16 0b10100_0_11000001 = some (.wdToneEn 0b000001) ∧
    decodeTableWord 16 0b10101_0_00100100 = some (.wdNoiseEn 0b100100) := by decide

theorem test_decode_noiseMode :
    decodeTableWord 16 0b10110_0_11111101 = some (.wdNoiseMode 1 3) := by decide

theorem test_decode_env :
    decodeTableWord 16 0b11000_0_10000100 = some (.wdEnvA 0x84) ∧
    decodeTableWord 16 0b11001_0_10110001 = some (.wdEnvB 0xB1) := by decide

theorem test_decode_ctrl :
    decodeTableWord 16 0b11100_0_11111101 = some (.wdCtrl true false) ∧
    decodeTableWord 16 0b11100_0_00000010 = some (.wdCtrl false true) := by decide

theorem test_decode_unused_low :
    decodeTableWord 16 0b00110_0_11111111 = some .wdNop6 ∧
    decodeTableWord 16 0b00111_0_11111111 = some .wdNop7 ∧
    decodeTableWord 16 0b01110_0_11111111 = some .wdNop14 ∧
    decodeTableWord 16 0b01111_0_11111111 = some .wdNop15 ∧
    decodeTableWord 16 0b10011_0_11111111 = some .wdNop19 ∧
    decodeTableWord 16 0b10111_0_11111111 = some .wdNop23 := by decide

theorem test_decode_unused_high :
    decodeTableWord 16 0b11010_0_00000000 = some .wdNop26 ∧
    decodeTableWord 16 0b11011_0_00000000 = some .wdNop27 ∧
    decodeTableWord 16 0b11101_0_00000000 = some .wdNop29 ∧
    decodeTableWord 16 0b11110_0_00000000 = some .wdNop30 ∧
    decodeTableWord 16 0b11111_0_00000000 = some .wdNop31 := by decide

theorem test_decode_host :
    decodeTableWord 8 0b0000_0000 = some .sample ∧ decodeTableWord 8 0b0011_0001 = some (.gen 3) ∧
    decodeTableWord 8 0b0000_0010 = some .clear ∧ decodeTableWord 8 0b0001_0011 = some (.setClock 1) ∧
    decodeTableWord 8 0b0001_0100 = some (.setRate 1) ∧
    decodeTableWord 8 0b0110_0101 = some (.setOversample 6) := by decide

theorem test_decode_host_reserved :
    decodeTableWord 8 0b0000_0110 = none ∧ decodeTableWord 8 0b0000_1111 = none := by decide

/-- The encoder gives the words above back, with the ignored bits 0. -/
theorem test_encode :
    encode (.wa 24) = .dk 0b00000_1_00011000 ∧ encode (.wdAmp5 1 2) = .dk 0b00101_0_00100001 ∧
    encode (.wdOct45 7 0) = .dk 0b10010_0_00000111 ∧ encode (.wdNoiseMode 1 3) = .dk 0b10110_0_00110001 ∧
    encode (.wdCtrl false true) = .dk 0b11100_0_00000010 ∧ encode (.gen 3) = .host 1 3 := by decide

/-! ### Steps and requests -/

/-- 30_encoding.md R81: the latch selects what a data word does. -/
theorem test_step_data_word :
    (nextOr one (step { one with latch := 28, pending := [.bus 0x001, .host 0 0] })).enable = true ∧
    (nextOr one (step { one with latch := 28, pending := [.bus 0x001, .host 0 0] })).pending = [.host 0 0] := by
  decide

/-- 95_test_vectors.md PL-6, 20_memory.md R64: refused requests. -/
theorem test_step_refused :
    refusalOf (step { one with pending := [.host 6 0] }) = some .reservedHostOp ∧
    refusalOf (step { one with pending := [.host 15 0] }) = some .reservedHostOp ∧
    refusalOf (step { one with pending := [.read .internalTable] }) = some .noReadPort := by decide

/-- A placed word is what the next step runs. -/
theorem test_withFetchWord :
    (nextOr one (step (one.withFetchWord 16 0b00101_0_00100001))).ampAt 5 =
      { ampPowerOn with volL := 1, volR := 2 } ∧
    (nextOr one (step (one.withFetchWord 8 0b0000_0101))).cfg.oversample = 0 := by decide

/-! ### WA (45_device_pipeline.md R230) -/

/-- R230's example: a running generator at position 5 is clocked to 6. -/
theorem test_wa_clocks_envelope :
    (nextOr one (exec (.wa 24) (one.setEnv 0 (running 3 5)))).latch = 24 ∧
    ((nextOr one (exec (.wa 24) (one.setEnv 0 (running 3 5)))).envAt 0).pos = 6 := by decide

/-- 95_test_vectors.md PL-7 and EG-12: address 0xFF is 31, and 88 is an alias of 24. -/
theorem test_wa_masks_address :
    (nextOr one (exec (.wa 0xFF) one)).latch = 31 ∧
    ((nextOr one (exec (.wa 88) (one.setEnv 0 (running 2 1)))).envAt 0).pos = 2 := by decide

/-! ### Amplitude writes (44_amplifier_mixer.md R210 to R215, the examples of each) -/

theorem test_amp0 :
    State.ampOut 0 (wrote 0 0x0F (one.setAmp 0 { loud with volL := 3, volR := 3 })) = (30, 0) := by decide

theorem test_amp1 : (wrote 1 0xF0 one).ampAt 1 = { ampPowerOn with volL := 0, volR := 15 } := by decide

theorem test_amp2 :
    State.ampOut 2 (wrote 2 0xFF ((one.setEnv 0 (running 1 0)).setAmp 2 loud)) = (28, 28) := by decide

theorem test_amp3 : (wrote 3 0x88 one).ampAt 3 = { ampPowerOn with volL := 8, volR := 8 } := by decide

theorem test_amp4 : State.ampOut 4 (wrote 4 0x00 (one.setAmp 4 loud)) = (0, 0) := by decide

theorem test_amp5 : (wrote 5 0x21 one).ampAt 5 = { ampPowerOn with volL := 1, volR := 2 } := by decide

/-! ### Offset and octave writes (41_frequency_generator.md R110 to R118, the examples of each) -/

theorem test_freq0_waits :
    (wrote 8 100 one).oscAt 0 = { oscPowerOn defaultParams 8000000 with nextOff := 100, newData := true } := by
  decide

/-- 95_test_vectors.md FG-5: an offset after an octave waits one boundary more. -/
theorem test_freq0_after_octave :
    (wrote 8 100 (wrote 16 0x03 one)).oscAt 0 =
      { oscPowerOn defaultParams 8000000 with
        nextOct := 3, nextOff := 100, newData := true, octWritten := true, ignoreOffset := true } := by decide

theorem test_freq1_synced :
    ((wrote 9 0xFF synced).oscAt 1).curOff = 255 ∧ ((wrote 9 0xFF synced).oscAt 1).add = 500000 := by decide

theorem test_freq2 :
    ((wrote 10 0 one).oscAt 2).nextOff = 0 ∧ ((wrote 10 0 one).oscAt 2).newData = true := by decide

theorem test_freq3 : ((wrote 11 200 one).oscAt 3).nextOff = 200 := by decide

theorem test_freq4 : ((wrote 12 1 one).oscAt 4).nextOff = 1 := by decide

theorem test_freq5 : ((wrote 13 128 one).oscAt 5).nextOff = 128 := by decide

theorem test_oct01 :
    ((wrote 16 0x43 one).oscAt 0).nextOct = 3 ∧ ((wrote 16 0x43 one).oscAt 1).nextOct = 4 ∧
    ((wrote 16 0x43 one).oscAt 1).octWritten = true := by decide

/-- 95_test_vectors.md FG-7: under sync the octave applies at once. -/
theorem test_oct01_synced :
    (wrote 8 100 (wrote 16 0x03 synced)).oscAt 0 =
      { oscPowerOn defaultParams 8000000 with
        curOct := 3, curOff := 100, nextOct := 3, nextOff := 100, add := 2491484, sync := true } := by decide

theorem test_oct23 :
    ((wrote 17 0x70 one).oscAt 2).nextOct = 0 ∧ ((wrote 17 0x70 one).oscAt 3).nextOct = 7 := by decide

theorem test_oct45 :
    ((wrote 18 0x0F one).oscAt 4).nextOct = 7 ∧ ((wrote 18 0x0F one).oscAt 5).nextOct = 0 := by decide

/-! ### Mixer, noise mode, envelope and global control writes -/

/-- 95_test_vectors.md AM-5. -/
theorem test_toneEn :
    channels.map (fun i => ((wrote 20 0xC1 one).ampAt i).toneEn) = [true, false, false, false, false, false] := by decide

/-- 95_test_vectors.md AM-5. -/
theorem test_noiseEn :
    channels.map (fun i => ((wrote 21 0x24 one).ampAt i).noiseEn) = [false, false, true, false, false, true] := by decide

/-- 42_noise_generator.md R147's example. -/
theorem test_noiseMode :
    ((wrote 22 0x31 one).noiseAt 0).mode = 1 ∧ ((wrote 22 0x31 one).noiseAt 1).mode = 3 := by decide

/-- 43_envelope_generator.md R180's example. -/
theorem test_envA_enable :
    envLeft defaultParams ((wrote 24 0x84 one).envAt 0) = 15 ∧
    envRight defaultParams ((wrote 24 0x84 one).envAt 0) = 15 := by decide

/-- 95_test_vectors.md EG-5: a buffered byte changes the resolution at once and nothing else. -/
theorem test_envA_buffer :
    (wrote 24 0xBE (one.setEnv 0 (running 3 5))).envAt 0 =
      { running 3 5 with res3 := true, pendByte := 0xBE, pendValid := true } := by decide

/-- 43_envelope_generator.md R181's example. -/
theorem test_envB_enable :
    envLeft defaultParams ((wrote 25 0xB1 one).envAt 1) = 0 ∧
    envRight defaultParams ((wrote 25 0xB1 one).envAt 1) = 14 := by decide

/-- 95_test_vectors.md EG-6: a disable applies the other fields and discards the buffered byte. -/
theorem test_envB_disable :
    (wrote 25 0x2E (one.setEnv 1 { running 3 5 with pendByte := 0xAE, pendValid := true })).envAt 1 =
      { envPowerOn with waveform := 7, extClock := true, pendByte := 0xAE } := by decide

/-- 45_device_pipeline.md R233's second example. -/
theorem test_ctrl_sync :
    (wrote 28 0x02 (one.setOsc 0 { highOsc with counter := 7, nextOff := 9, newData := true })).oscAt 0 =
      { highOsc with sync := true, curOff := 9, nextOff := 9, add := romFreq defaultParams 8000000 0 9 } := by
  decide

/-- 95_test_vectors.md PL-8. -/
theorem test_ctrl_ignored_bits :
    (wrote 28 0xFC enabled).enable = false ∧ (wrote 28 0xFC enabled).gsync = false ∧
    (wrote 28 0x03 one).enable = true ∧ State.ampOut 0 (wrote 28 0x03 (one.setAmp 0 loud)) = (0, 0) := by decide

/-- 95_test_vectors.md PL-10, on a state with every part in use. -/
theorem test_unused :
    unusedAddresses.all (fun l =>
      decide (wrote l 0xFF ((enabled.setEnv 0 (running 3 5)).setAmp 2 loud) =
        (enabled.setEnv 0 (running 3 5)).setAmp 2 loud)) = true := by decide

/-! ### The parts inside a sub-tick -/

/-- 95_test_vectors.md FG-1 and FG-2. -/
theorem test_rom_and_threshold :
    romFreq defaultParams 8000000 0 254 = 498054 ∧ romFreq defaultParams 8000000 4 128 = 5347258 ∧
    romFreq defaultParams 4000000 0 0 = 125244 ∧ thresh State.reset.cfg = 11560550400 := by decide

/-- 95_test_vectors.md FG-4: 61 crossings in one tick. -/
theorem test_oscTick_many_crossings :
    (State.oscTick 0 { one with cfg := { one.cfg with sampleHz := 1 } }).oscAt 0 =
      { highOsc with counter := 633 } := by decide

/-- 95_test_vectors.md FG-5, frame 722: the octave applies, the offset still waits. -/
theorem test_oscTick_defers_offset :
    (State.oscTick 0 (one.setOsc 0 { oscPowerOn defaultParams 8000000 with
      counter := 180602569, nextOct := 3, nextOff := 100, newData := true, octWritten := true,
      ignoreOffset := true })).oscAt 0 =
      { highOsc with
        counter := 219458, curOct := 3, nextOct := 3, nextOff := 100, newData := true, add := 2003913 } := by
  decide

/-- 95_test_vectors.md NG-1, from the value before the first feedback of 1, and NG-7. -/
theorem test_noiseShift :
    (noiseShift { noisePowerOn defaultParams with reg := 0x44444440 }).reg = 0x88888881 ∧
    (noiseShift { noisePowerOn defaultParams with reg := 0x80000000 }).reg = 0 ∧
    (noiseShift { noisePowerOn defaultParams with reg := 0x40000000 }).reg = 0x80000001 := by decide

/-- 95_test_vectors.md NG-2, mode 0, frame 2: the counter passes the threshold and A shifts once. -/
theorem test_noiseTick :
    noiseTick 180633600 128000000 { noisePowerOn defaultParams with counter := 128000000 } =
      { noisePowerOn defaultParams with counter := 75366400, reg := 0x22222222 } := by decide

/-- 95_test_vectors.md EG-9: an odd position wraps to 1, and the buffered byte is then loaded. -/
theorem test_envClock_wrap_loads :
    envClock defaultParams { running 3 15 with res3 := true, pendByte := 0xB6, pendValid := true } =
      { running 3 0 with res3 := true, pendByte := 0xB6 } := by decide

/-- 95_test_vectors.md EG-10: the boundary between the phases does not load it. -/
theorem test_envClock_phase_boundary :
    envClock defaultParams { running 5 15 with pendByte := 0xA6, pendValid := true } =
      { running 5 0 with phase := 1, pendByte := 0xA6, pendValid := true } := by decide

/-- 95_test_vectors.md AM-1 (mode 3) and AM-3. -/
theorem test_inter_and_envAmp :
    interOf 3 .high true = 1 ∧ interOf 3 .high false = 2 ∧ interOf 3 .low true = 0 ∧ interOf 2 .low true = 2 ∧
    envAmp defaultParams 15 15 false = 14 ∧ envAmp defaultParams 8 10 true = 5 ∧
    envAmp defaultParams 1 15 false = 0 := by decide

/-- 42_noise_generator.md R146: in mode 3 the amplifier reads the bit its oscillator has just shifted in. -/
theorem test_ampTick_reads_shifted_noise :
    ((State.ampTick 0 ((one.setNoise 0 { noisePowerOn defaultParams with mode := 3 }).setOsc 0
      { highOsc with counter := 180633599 })).noiseAt 0).reg = 0x22222222 ∧
    ((State.ampTick 0 (((one.setNoise 0 { noisePowerOn defaultParams with mode := 3 }).setOsc 0
      { highOsc with counter := 180633599 }).setAmp 0 { loud with toneEn := false, noiseEn := true })).ampAt 0).inter
      = 0 := by decide

/-- 95_test_vectors.md PL-3: the filter's second and last rows. -/
theorem test_hpf :
    hpf defaultParams 32760 1539720 = (32737, 3078335) ∧
    hpf defaultParams 32760 2146957966 = (1, 2146957966) ∧ (hpf defaultParams 0 2146957966).1 = -32759 := by decide

/-- 95_test_vectors.md PL-5. -/
theorem test_frameBytes :
    frameBytes { left := clamp16 5460, right := clamp16 (-30) } = [0x54, 0x15, 0xE2, 0xFF] ∧
    frameBytes { left := clamp16 32767, right := clamp16 (-32768) } = [0xFF, 0x7F, 0x00, 0x80] := by decide

/-! ### SAMPLE, GEN, CLEAR and the configuration -/

/-- 45_device_pipeline.md R241's example. -/
theorem test_sample :
    (nextOr one (exec .sample (((flat 182).setOsc 0 highOsc).setAmp 0 { loud with volR := 0 }))).out =
      [{ left := 5460, right := 0 }] := by decide

/-- 95_test_vectors.md PL-4: a gain of 400 clamps. -/
theorem test_sample_clamps :
    (nextOr one (exec .sample
      { flat 400 with osc := Six.ofFn (fun _ => highOsc), amp := Six.ofFn (fun _ => loud) })).out =
      [{ left := 32767, right := 32767 }] := by decide

/-- 45_device_pipeline.md R245: GEN emits its count; a count of 0 does nothing. -/
theorem test_gen :
    (nextOr one (exec (.gen 3) one)).out.length = 3 ∧ nextOr one (exec (.gen 0) enabled) = enabled := by decide

/-- 70_reset_and_hazards.md R301 and R302: what CLEAR keeps, and what it ends. -/
theorem test_clear_keeps :
    (nextOr one (exec .clear { (one.setOsc 0 highOsc) with latch := 9, zL := 33566308 })).latch = 0 ∧
    ((nextOr one (exec .clear { (one.setOsc 0 highOsc) with latch := 9, zL := 33566308 })).oscAt 0).level = .high ∧
    (nextOr one (exec .clear { (one.setOsc 0 highOsc) with latch := 9, zL := 33566308 })).zL = 33566308 := by decide

theorem test_clear_mutes :
    (nextOr one (exec .clear (enabled.setEnv 0 (running 3 5)))).envAt 0 = envPowerOn ∧
    ((nextOr one (exec .clear (enabled.setAmp 0 loud))).ampAt 0).mute = true := by decide

/-- 45_device_pipeline.md R250's example, and 95_test_vectors.md PL-6. -/
theorem test_setClock :
    ((nextOr one (exec (.setClock 4000000)
      (one.setOsc 0 { highOsc with curOct := 4, curOff := 128, add := 5347258 }))).oscAt 0).add = 2673629 ∧
    refusalOf (exec (.setClock 33554433) one) = some .configOutOfRange := by decide

/-- 45_device_pipeline.md R251's example, and 95_test_vectors.md PL-6. -/
theorem test_setRate :
    (nextOr one (exec (.setRate 8000) one)).thresh = 32768000 ∧
    refusalOf (exec (.setRate 0) one) = some .configOutOfRange := by decide

/-- 95_test_vectors.md FG-2 (the maximum) and PL-6. -/
theorem test_setOversample :
    (nextOr one (exec (.setOversample 8) { one with cfg := { one.cfg with sampleHz := 1048576 } })).thresh =
      1099511627776 ∧ refusalOf (exec (.setOversample 9) one) = some .configOutOfRange := by decide

/-! ### The textual form (30_encoding.md R90, R91) -/

theorem test_readLine :
    readLine ['w', 'a', 'd', ' ', '2', '8', ',', ' ', '0', 'x', '0', '2', ' ', ';', 'c'] =
      some (some (.wad 28 2)) ∧
    readLine [' ', ';', 'x'] = some none ∧ readLine ['w', 'a', ' ', '2', '5', '6'] = none := by decide

theorem test_requests :
    AsmLine.requests (.wad 28 2) = [.bus 0x11C, .bus 0x002] ∧ AsmLine.requests (.gen 7) = [.host 1 7] := by decide

/-! ### Witnesses: a state and operands that meet the hypotheses of an obligation, clause by clause -/

/-- A device playing: outputs enabled, a loud channel, one envelope generator running. -/
def playing : State := (enabled.setAmp 0 loud).setEnv 0 (running 3 5)

/-- StepRunsTheDecodedOperation. -/
theorem witness_step :
    operationOf one.latch (.bus 0x11C) = .ok (.wa 28) ∧ operationOf 28 (.bus 0x003) = .ok (.wdCtrl true true) ∧
    operationOf one.latch (.host 1 (2 ^ 32)) = .ok (.gen (2 ^ 32)) ∧ one.pending = [] :=
  ⟨rfl, rfl, rfl, rfl⟩

/-- DecodeOfEncodeIsTheOperation has no hypothesis: a count past R82's range decodes back too. -/
theorem witness_roundTrip : decode (encode (.gen (2 ^ 32))) = .ok (.gen (2 ^ 32)) := rfl

/-- EveryWordSelectsOneTableRow: the last op, and GEN past R82's range. -/
theorem witness_hostRows :
    decodeHost 5 9 = .ok (.setOversample 9) ∧ ("SET_OVERSAMPLE", 5) ∈ hostRows ∧
    decodeHost 1 (2 ^ 32) = .ok (.gen (2 ^ 32)) ∧ ("GEN", 1) ∈ hostRows :=
  ⟨rfl, by decide, rfl, by decide⟩

/-- EveryLegalRequestCompletes: each kind of request at the ends of its range. -/
theorem witness_legal :
    (∃ w, Request.bus 0x1FF = .bus w) ∧ (∃ n, Request.host 0 7 = .host 0 n) ∧ (∃ n, Request.host 2 0 = .host 2 n) ∧
    (∃ n, Request.host 1 (2 ^ 32) = .host 1 n) ∧
    (∃ hz, Request.host 3 (2 ^ 25) = .host 3 hz ∧ 1 ≤ hz ∧ hz ≤ 2 ^ 25) ∧
    (∃ hz, Request.host 4 1 = .host 4 hz ∧ 1 ≤ hz ∧ hz ≤ 2 ^ 20) ∧
    (∃ n, Request.host 5 8 = .host 5 n ∧ n ≤ 8) :=
  ⟨⟨_, rfl⟩, ⟨_, rfl⟩, ⟨_, rfl⟩, ⟨_, rfl⟩, ⟨_, rfl, by decide, by decide⟩,
    ⟨_, rfl, by decide, by decide⟩, ⟨_, rfl, by decide⟩⟩

/-- DataWordRunsRegWriteOfTheLatch. -/
theorem witness_dataWord :
    ({ one with latch := 31, pending := [.bus 0x0FF, .host 0 0] } : State).pending =
      .bus (dataWord 0xFF) :: [.host 0 0] := by decide

/-- IgnoredBitsHaveNoEffect: bytes that differ in ignored bits only, one pair for each clause. -/
theorem witness_ignoredBits :
    (0x77 : Byte) &&& 0x77 = 0xFF &&& 0x77 ∧ (0xC1 : Byte) &&& 0x3F = 0x01 &&& 0x3F ∧
    (0xFF : Byte) &&& 0x33 = 0x33 &&& 0x33 ∧ (0xFC : Byte) &&& 0x03 = 0x00 &&& 0x03 ∧
    (0xF8 : Byte) &&& 0x1F = 0x18 &&& 0x1F ∧ (0xFF : Byte) &&& 0xBF = 0xBF &&& 0xBF := by decide

/-- RequestsThatAreNoOperationAreRefused and RefusalsHaveOnlyTheNamedReasons: each reason, at its first value. -/
theorem witness_refused :
    6 ≤ (6 : BitVec 4).toNat ∧ step { one with pending := [.host 6 0] } = .refused .reservedHostOp ∧
    step { one with pending := [.read (.register 0)] } = .refused .noReadPort ∧
    ({ one with pending := [.host 1 (2 ^ 32)] } : State).pending = .host 1 (2 ^ 32) :: [] ∧
    step { one with pending := [.host 3 0] } = .refused .configOutOfRange ∧
    step { one with pending := [.host 4 1048577] } = .refused .configOutOfRange ∧
    step { one with pending := [.host 5 9] } = .refused .configOutOfRange :=
  ⟨by decide, rfl, rfl, rfl, rfl, rfl, rfl⟩

/-- AddressWriteSetsLatchAndClocksEnvelope: an external clock on A by an alias, none on B. -/
theorem witness_addressWrite :
    (56 : Byte).toNat % 32 = 24 + (0 : Gen).val ∧ (playing.envAt 0).extClock = true ∧
    (57 : Byte).toNat % 32 = 24 + (1 : Gen).val ∧ (playing.envAt 1).extClock = false := by decide

/-- OffsetWriteWaitsOutsideSync, OctaveWriteMarksBothOscillators: both clauses. -/
theorem witness_bufferedWrites :
    (synced.oscAt 5).sync = true ∧ (one.oscAt 5).sync = false ∧ (5 : Chan) = pairHigh 2 ∧ (4 : Chan) = pairLow 2 ∧
    (0 : Chan) ≠ pairLow 2 ∧ (0 : Chan) ≠ pairHigh 2 := by decide

/-- EnvControlWriteTakesOneOfThreePaths: disable, enable from disabled, enable from ready, buffer. -/
theorem witness_envControl :
    (0x7F : Byte).getLsbD 7 = false ∧ (0x80 : Byte).getLsbD 7 = true ∧ (one.envAt 0).enabled = false ∧
    ((one.setEnv 1 { running 3 0 with ready := true }).envAt 1).ready = true ∧
    (playing.envAt 0).enabled = true ∧ (playing.envAt 0).ready = false := by decide

/-- UnusedRegisterWritesChangeNothing. -/
theorem witness_unused :
    Instr.wdNop6 ∈ unusedWrites ∧ Instr.wdNop31 ∈ unusedWrites ∧ (6 : BitVec 5) ∈ unusedAddresses ∧
    (31 : BitVec 5) ∈ unusedAddresses := by decide

/-- PlainRegisterWritesAreIdempotent: each kind of write answers a next state. -/
theorem witness_idempotent :
    (∃ c l r, Instr.wdAmp5 15 0 = ampWrite c l r) ∧ (∃ t, exec (.wdAmp5 15 0) playing = .next t) ∧
    (∃ t, exec (.wdToneEn 63) playing = .next t) ∧ (∃ t, exec (.wdNoiseEn 63) playing = .next t) ∧
    (∃ t, exec (.wdNoiseMode 3 3) playing = .next t) ∧ ∃ t, exec (.wdCtrl true true) playing = .next t :=
  ⟨⟨5, 15, 0, rfl⟩, ⟨_, rfl⟩, ⟨_, rfl⟩, ⟨_, rfl⟩, ⟨_, rfl⟩, ⟨_, rfl⟩⟩

/-- PeriodTableEntriesAreBounded, NoiseTickClosedForm: a formula and a table, and each mode with an increment. -/
theorem witness_tables :
    defaultParams.freqRom = .formula ∧ ({ defaultParams with freqRom := .table [7] } : Params).freqRom = .table [7] ∧
    defaultParams.noiseAdd = .formula ∧
    ({ defaultParams with noiseAdd := .table 1 2 3 } : Params).noiseAdd = .table 1 2 3 ∧
    (0 : BitVec 2) ≠ 3 ∧ (1 : BitVec 2) ≠ 3 ∧ (2 : BitVec 2) ≠ 3 := by decide

/-- PeriodTableEntriesAreBounded, ThresholdIsInRange: the ends of the legal ranges. -/
theorem witness_legalConfigurations :
    clockLegal 1 = true ∧ clockLegal (2 ^ 25) = true ∧
    cfgLegal { clockHz := 1, sampleHz := 1, oversample := 0 } = true ∧
    cfgLegal { clockHz := 2 ^ 25, sampleHz := 2 ^ 20, oversample := 8 } = true := by decide

/-- OscillatorTickClosedForm, NoiseTickClosedForm: synced and not, with a threshold. -/
theorem witness_ticks :
    (synced.oscAt 0).sync = true ∧ (one.oscAt 0).sync = false ∧ 0 < one.thresh ∧
    (synced.noiseAt 1).sync = true ∧ (one.noiseAt 1).sync = false ∧ (one.noiseAt 1).mode ≠ 3 := by decide

/-- OctaveThenOffsetDefersTheOffset: the higher oscillator of a pair, both orders. -/
theorem witness_octaveThenOffset :
    ((1 : Chan) = pairLow 0 ∧ (4 : BitVec 3) = 3 ∨ (1 : Chan) = pairHigh 0 ∧ (4 : BitVec 3) = 4) ∧
    (one.oscAt 1).sync = false ∧ (one.oscAt 1).newData = false ∧ (one.oscAt 1).octWritten = false ∧
    (one.oscAt 1).ignoreOffset = false ∧
    exec (octaveWrite 0 3 4) one = .next (one.setOctaves 0 1 3 4) ∧
    exec (offsetWrite 1 100) (one.setOctaves 0 1 3 4) = .next ((one.setOctaves 0 1 3 4).setOffset 1 100) ∧
    exec (offsetWrite 1 100) one = .next (one.setOffset 1 100) ∧
    exec (octaveWrite 0 3 4) (one.setOffset 1 100) = .next ((one.setOffset 1 100).setOctaves 0 1 3 4) :=
  ⟨by decide, rfl, rfl, rfl, rfl, rfl, rfl, rfl, rfl⟩

/-- NoiseShiftFeedsBackTwoTaps: a trigger that shifts, one in another mode, one under sync. -/
theorem witness_noiseTrigger :
    ({ noisePowerOn defaultParams with mode := 3 } : Noise).mode = 3 ∧
    ({ noisePowerOn defaultParams with mode := 3 } : Noise).sync = false ∧
    (noisePowerOn defaultParams).mode ≠ 3 ∧ (synced.noiseAt 0).sync = true ∧
    (noisePowerOn { defaultParams with noiseSeed := 0 }).reg = 0 ∧
    (noisePowerOn defaultParams).reg = 0x11111111 := by decide

/-- EnvelopeClockCases, stopped: disabled, and ended. -/
theorem witness_envClock_stopped :
    envPowerOn.enabled = false ∧ ({ running 2 0 with ended := true } : Env).ended = true := by decide

/-- EnvelopeClockCases, ready with a byte buffered. -/
theorem witness_envClock_ready :
    ∃ e : Env, e = { running 3 5 with ready := true, pendValid := true } ∧ e.enabled = true ∧ e.ended = false ∧
      e.ready = true ∧ e.pendValid = true := ⟨_, rfl, rfl, rfl, rfl, rfl⟩

/-- EnvelopeClockCases, the last position that does not wrap. -/
theorem witness_envClock_below :
    ∃ e : Env, e = running 3 14 ∧ e.enabled = true ∧ e.ended = false ∧ (e.pendValid = true → e.ready = false) ∧
      e.pos.toNat + stepSize e.res3 < 16 := ⟨_, rfl, by decide⟩

/-- EnvelopeClockCases, the end of phase 0 of two. -/
theorem witness_envClock_phase :
    ∃ e : Env, e = running 5 15 ∧ e.enabled = true ∧ e.ended = false ∧ (e.pendValid = true → e.ready = false) ∧
      16 ≤ e.pos.toNat + stepSize e.res3 ∧ e.phase.val + 1 < phaseCount (romEnv defaultParams e.waveform) :=
  ⟨_, rfl, by decide⟩

/-- EnvelopeClockCases, the cycle end, with no byte and with one. -/
theorem witness_envClock_cycleEnd :
    ∃ e : Env, e = running 3 15 ∧ e.enabled = true ∧ e.ended = false ∧ e.ready = false ∧ e.pendValid = false ∧
      ({ e with pendValid := true } : Env).pendValid = true ∧ 16 ≤ e.pos.toNat + stepSize e.res3 ∧
      phaseCount (romEnv defaultParams e.waveform) ≤ e.phase.val + 1 := ⟨_, rfl, by decide⟩

/-- EnvelopeCycleLength: the single decay at its start, which does not loop. -/
theorem witness_cycle :
    (running 2 0).enabled = true ∧ (running 2 0).ended = false ∧ (running 2 0).pendValid = false ∧
    (running 2 0).phase = 0 ∧ (running 2 0).pos = 0 ∧ (romEnv defaultParams 2).loop = false ∧
    defaultParams.envRom = defaultEnvRom ∧ (running 2 0).waveform = 2 ∧ (running 2 0).res3 = false := by decide

/-- EnvelopeLevelsMirrorOrInvert: stopped; running, mirrored and inverted, with legal contours. -/
theorem witness_levels :
    ({ running 2 0 with ended := true } : Env).ended = true ∧ (running 2 0).enabled = true ∧
    (running 2 0).ended = false ∧ (running 2 0).invertRight = false ∧
    ({ running 2 0 with invertRight := true } : Env).invertRight = true ∧ paramsLegal defaultParams = true := by
  decide

/-- AmplifierOutput: muted; the envelope path of channel 2; the plain path of channel 2 and of channel 0. -/
theorem witness_ampOut :
    (one.ampAt 0).mute = true ∧ (synced.ampAt 5).sync = true ∧ (playing.ampAt 2).mute = false ∧
    (playing.ampAt 2).sync = false ∧ (playing.envAt 0).enabled = true ∧ (enabled.envAt 0).enabled = false ∧
    (enabled.envAt 1).enabled = false ∧ (0 : Chan) ≠ 2 ∧ (0 : Chan) ≠ 5 := by decide

/-- SampleEmitsOneFilteredFrame, DefaultOutputNeverClamps: filter on and off, the largest sum and accumulator. -/
theorem witness_filter :
    one.params.hpfEnable = true ∧ (flat 182).params.hpfEnable = false ∧ 180 * 2 ^ 8 ≤ 180 * 2 ^ 8 ∧
    (0 : Int) ≤ 32760 * 65536 ∧ (32760 * 65536 : Int) ≤ 32760 * 65536 := by decide

/-- CountersAreBelowTheThresholdAfterSample, AmplifiersDoNotInfluenceGenerators,
RightSideDoesNotInfluenceTheLeft: two devices that differ in volumes, filter and frames, with their samples. -/
theorem witness_samples :
    0 < playing.thresh ∧ playing.oscInv ∧
    sameGenerators playing { (playing.setAmp 1 loud) with zL := 5, out := [{ left := 1, right := 2 }] } ∧
    sameGenerators playing { (playing.setAmp 0 { loud with volR := 3 }) with zR := 9 } ∧
    ({ (playing.setAmp 0 { loud with volR := 3 }) with zR := 9 } : State).zL = playing.zL ∧
    (∀ i : Chan, ({ (playing.setAmp 0 { loud with volR := 3 }) with zR := 9 } : State).ampAt i =
      { playing.ampAt i with
        volR := (({ (playing.setAmp 0 { loud with volR := 3 }) with zR := 9 } : State).ampAt i).volR }) := by
  decide

/-- Every SAMPLE and GEN answers a next state, so the hypotheses that name one are met. -/
theorem witness_sampleAnswers (s : State) (n : Nat) :
    exec .sample s = .next s.sampleOnce ∧ exec (.gen n) s = .next (iter n State.sampleOnce s) := ⟨rfl, rfl⟩

/-- MutedSampleIsTheFilterDecay, SyncedSampleMovesNoGenerator, OnlyGlobalControlUnmutes: disabled, and synced
while enabled. -/
theorem witness_copies :
    one.copyInv ∧ one.enable = false ∧ (enabled.globalControl true true).copyInv ∧
    (enabled.globalControl true true).gsync = true ∧ (enabled.globalControl true true).enable = true ∧
    ∀ sy, Instr.sample ≠ .wdCtrl true sy := by decide

/-- GenIsItsSampleProgram, ClearIsItsBusProgram: the host has issued the program. -/
theorem witness_programs :
    ({ one with pending := genProgram 2 ++ [.host 0 0] } : State).pending = genProgram 2 ++ [.host 0 0] ∧
    ({ one with pending := clearProgram ++ [] } : State).pending = clearProgram ++ [] := ⟨rfl, rfl⟩

/-- SetClockRecomputesEveryIncrement, SetRateAndOversampleChangeOnlyTheConfiguration,
ConfigurationOutOfRangeIsRefused: the last value in each range and the first ones out of it. -/
theorem witness_ranges :
    clockLegal (2 ^ 25) = true ∧ clockLegal (2 ^ 25 + 1) = false ∧ clockLegal 0 = false ∧
    rateLegal (2 ^ 20) = true ∧ rateLegal (2 ^ 20 + 1) = false ∧ rateLegal 0 = false ∧
    oversampleLegal 8 = true ∧ oversampleLegal 9 = false := by decide

/-- OutputStreamIsAppendOnly, LatchChangesOnlyByAddressWriteAndClear,
OnlyConfigurationOperationsWriteTheConfiguration: operations of each kind answer a next state. -/
theorem witness_answers :
    (∃ t, exec (.wa 5) playing = .next t) ∧ (∃ t, exec .clear playing = .next t) ∧
    (∃ t, exec (.setClock 1) playing = .next t) ∧ (∃ t, exec (.setRate 1) playing = .next t) ∧
    (∃ t, exec (.setOversample 0) playing = .next t) ∧ (∃ t, exec .sample playing = .next t) ∧
    playing.cfgInv :=
  ⟨⟨_, rfl⟩, ⟨_, rfl⟩, ⟨_, rfl⟩, ⟨_, rfl⟩, ⟨_, rfl⟩, ⟨_, rfl⟩, by decide⟩

/-- PowerOnState: any parameters and configuration. -/
theorem witness_powerOn :
    one = State.powerOn defaultParams { clockHz := 8000000, sampleHz := 44100, oversample := 0 } := rfl

/-- The invariants' steps: a playing device with a request meets every invariant and steps. -/
theorem witness_invariants :
    playing.oscInv ∧ playing.bufferInv ∧ playing.noiseInv ∧ playing.envInv ∧ playing.copyInv ∧ playing.filterInv ∧
    playing.filterRange ∧ playing.params.gain ≤ 2 ^ 16 ∧ playing.params.hpfA ≤ 2 ^ 16 ∧ playing.params.hpfB < 2 ^ 16 ∧
    ({ playing with pending := [.bus 0x118] } : State).envInv ∧
    ∃ t, step { playing with pending := [.bus 0x118] } = .next t :=
  ⟨by decide, by decide, by decide, by decide, by decide, by decide, by decide, by decide, by decide, by decide,
    by decide, ⟨_, rfl⟩⟩

end Sys2Proof.Tests
end

section
/-! PROOFS. What one step answers, by the head of the request list, and the operations that are not
well-formed (00_scope.md R5, 20_memory.md R68, 30_encoding.md R82). -/

namespace Sys2Proof

/-- The only operation that is not well-formed is a GEN of a count past R82's range (log 7). -/
theorem Instr.wellFormed_or_gen_ge (i : Instr) : i.wellFormed = true ∨ ∃ n, i = .gen n ∧ 2 ^ 32 ≤ n := by
  cases i with
  | gen n => exact (Nat.lt_or_ge n genCountBound).imp decide_eq_true fun h => ⟨n, rfl, h⟩
  | _ => exact .inl rfl

end Sys2Proof

namespace Sys2Proof.Machine

/-- With no request a step changes nothing (log 1). -/
theorem step_of_pending_nil {s : State} (hp : s.pending = []) : step s = .next s := by
  simp only [step, hp]

/-- With a request that stands for an operation a step is that operation, the request taken. -/
theorem step_of_operationOf_ok {s : State} {r : Request} {rest : List Request} {i : Instr}
    (hp : s.pending = r :: rest) (hi : operationOf s.latch r = .ok i) :
    step s = exec i { s with pending := rest } := by
  simp only [step, hp, hi]

/-- Settles O1, from what a step answers with and without a request; well-formedness needs nothing of the
decoder, for a GEN past R82's range is the only operation that lacks it. -/
theorem stepRunsTheDecodedOperation : Obligations.StepRunsTheDecodedOperation :=
  ⟨fun _ _ _ i hp hi => ⟨i.wellFormed_or_gen_ge, step_of_operationOf_ok hp hi⟩, fun _ => step_of_pending_nil⟩

end Sys2Proof.Machine
end

section
/-! PROOFS. The configuration and its derived threshold: the legal ranges as inequalities, and which operations
write the configuration (10_state.md R30, R31; 00_scope.md R6). -/

namespace Sys2Proof.Machine

theorem cfgLegal_iff (c : Cfg) :
    cfgLegal c = true ↔
      clockLegal c.clockHz = true ∧ rateLegal c.sampleHz = true ∧ oversampleLegal c.oversample = true := by
  simp only [cfgLegal, Bool.and_eq_true, and_assoc]

theorem rateLegal_iff (hz : Nat) : rateLegal hz = true ↔ 1 ≤ hz ∧ hz ≤ 2 ^ 20 := by
  simp only [rateLegal, Bool.and_eq_true, decide_eq_true_eq]

theorem oversampleLegal_iff (n : Nat) : oversampleLegal n = true ↔ n ≤ 8 := decide_eq_true_iff

/-- Settles O21: each factor is at least 1, and the largest factors of a legal configuration are 2^20, 2^8 and
2^12. -/
theorem thresholdIsInRange : Obligations.ThresholdIsInRange := by
  intro c hc
  obtain ⟨-, hrate, hov⟩ := (cfgLegal_iff c).1 hc
  obtain ⟨hlo, hhi⟩ := (rateLegal_iff _).1 hrate
  have hpow : 2 ^ c.oversample ≤ 2 ^ 8 := Nat.pow_le_pow_right two_pos ((oversampleLegal_iff _).1 hov)
  refine ⟨rfl, ?_, ?_⟩
  · calc 4096 = 1 * 1 * 2 ^ frac := rfl
      _ ≤ thresh c := Nat.mul_le_mul_right _ (Nat.mul_le_mul hlo Nat.one_le_two_pow)
  · calc thresh c ≤ 2 ^ 20 * 2 ^ 8 * 2 ^ frac := Nat.mul_le_mul_right _ (Nat.mul_le_mul hhi hpow)
      _ = 2 ^ 40 := rfl

/-! ### Which operations write the configuration -/

theorem addressWrite_cfg_params (reg : Byte) (s : State) :
    (s.addressWrite reg).cfg = s.cfg ∧ (s.addressWrite reg).params = s.params := by
  obtain ⟨-, -, -, -, -, -, -, -, -, hcfg, hparams, -⟩ := addressWrite_spec reg s
  exact ⟨hcfg, hparams⟩

theorem regWrite_cfg_params (a : BitVec 5) (d : Byte) (s : State) :
    (s.regWrite a d).cfg = s.cfg ∧ (s.regWrite a d).params = s.params := by
  obtain ⟨-, -, -, hcfg, hparams, -⟩ := regWrite_frame a d s
  exact ⟨hcfg, hparams⟩

theorem clearAll_cfg_params (s : State) : s.clearAll.cfg = s.cfg ∧ s.clearAll.params = s.params := by
  refine clearAll_keeps (P := fun u => u.cfg = s.cfg ∧ u.params = s.params) ?_ ?_ ⟨rfl, rfl⟩
  · exact fun reg u hu => (addressWrite_cfg_params reg u).imp (·.trans hu.1) (·.trans hu.2)
  · exact fun a d u hu => (regWrite_cfg_params a d u).imp (·.trans hu.1) (·.trans hu.2)

theorem iter_sampleOnce_cfg_params (n : Nat) (s : State) :
    (iter n State.sampleOnce s).cfg = s.cfg ∧ (iter n State.sampleOnce s).params = s.params := by
  refine iter_keeps (P := fun u : State => u.cfg = s.cfg ∧ u.params = s.params) (fun u hu => ?_) n ⟨rfl, rfl⟩
  obtain ⟨-, -, -, -, -, -, -, hcfg, hparams, -⟩ := sampleOnce_spec u
  exact ⟨hcfg.trans hu.1, hparams.trans hu.2⟩

/-- An operation keeps the parameters, and keeps the configuration unless it is one of the three configuration
writes, which sets its own field to a legal value. -/
theorem exec_params_cfg {i : Instr} {s t : State} (h : exec i s = .next t) :
    t.params = s.params ∧
      (t.cfg = s.cfg ∨
        (∃ hz, i = .setClock hz ∧ clockLegal hz = true ∧ t.cfg = { s.cfg with clockHz := hz }) ∨
        (∃ hz, i = .setRate hz ∧ rateLegal hz = true ∧ t.cfg = { s.cfg with sampleHz := hz }) ∨
        ∃ n, i = .setOversample n ∧ oversampleLegal n = true ∧ t.cfg = { s.cfg with oversample := n }) := by
  rcases exec_cases i s with
      ⟨reg, -, e⟩ | ⟨l, d, -, e⟩ | ⟨n, -, e⟩ | ⟨-, e⟩ | ⟨hz, hi, e⟩ | ⟨hz, hi, e⟩ | ⟨n, hi, e⟩ <;>
    rw [e] at h
  · cases h; exact (addressWrite_cfg_params reg s).symm.imp_right .inl
  · cases h; exact (regWrite_cfg_params l d s).symm.imp_right .inl
  · cases h; exact (iter_sampleOnce_cfg_params n s).symm.imp_right .inl
  · cases h; exact (clearAll_cfg_params s).symm.imp_right .inl
  · split at h <;> cases h
    next hl => exact ⟨rfl, .inr (.inl ⟨hz, hi, hl, rfl⟩)⟩
  · split at h <;> cases h
    next hl => exact ⟨rfl, .inr (.inr (.inl ⟨hz, hi, hl, rfl⟩))⟩
  · split at h <;> cases h
    next hl => exact ⟨rfl, .inr (.inr (.inr ⟨n, hi, hl, rfl⟩))⟩

/-- Settles O52, from what an operation does to the parameters and the configuration. -/
theorem onlyConfigurationOperationsWriteTheConfiguration :
    Obligations.OnlyConfigurationOperationsWriteTheConfiguration := by
  refine ⟨fun i s t h => ?_, rfl⟩
  obtain ⟨hparams, hcfg⟩ := exec_params_cfg h
  refine ⟨hparams, ?_⟩
  rcases hcfg with hcfg | ⟨v, hi, hv, hcfg⟩ | ⟨v, hi, hv, hcfg⟩ | ⟨v, hi, hv, hcfg⟩ <;>
    simp only [State.cfgInv, cfgLegal_iff, hcfg]
  · exact ⟨fun _ => trivial, fun _ => trivial, fun _ => trivial, id⟩
  · exact ⟨fun hne => absurd hi (hne v), fun _ => trivial, fun _ => trivial, fun ⟨_, hr, ho⟩ => ⟨hv, hr, ho⟩⟩
  · exact ⟨fun _ => trivial, fun hne => absurd hi (hne v), fun _ => trivial, fun ⟨hc, _, ho⟩ => ⟨hc, hv, ho⟩⟩
  · exact ⟨fun _ => trivial, fun _ => trivial, fun hne => absurd hi (hne v), fun ⟨hc, hr, _⟩ => ⟨hc, hr, hv⟩⟩

end Sys2Proof.Machine
end

section
/-! PROOFS. The mute and sync copies: every rule of the bus, the pipeline and the configuration keeps their
agreement with the device (10_state.md R29, 45_device_pipeline.md R233). -/

namespace Sys2Proof.Machine

/-! ### The sync flag of a part under its own operations -/

@[simp] theorem oscSetOffset_sync (rom : BitVec 3 → Byte → Nat) (v : Byte) (o : Osc) :
    (oscSetOffset rom v o).sync = o.sync := by
  unfold oscSetOffset; split <;> rfl

@[simp] theorem oscSetOctave_sync (rom : BitVec 3 → Byte → Nat) (v : BitVec 3) (o : Osc) :
    (oscSetOctave rom v o).sync = o.sync := by
  unfold oscSetOctave; split <;> rfl

@[simp] theorem oscSync_sync (rom : BitVec 3 → Byte → Nat) (b : Bool) (o : Osc) :
    (oscSync rom b o).sync = b := by
  cases b <;> rfl

@[simp] theorem noiseSync_sync (b : Bool) (n : Noise) : (noiseSync b n).sync = b := by
  cases b <;> rfl

section
variable {s : State}

/-! ### Replacing one part -/

/-- An oscillator may be replaced by one with the same sync flag. -/
theorem copyInv_setOsc (h : s.copyInv) {i : Chan} {o : Osc} (ho : o.sync = (s.osc.get i).sync) :
    (s.setOsc i o).copyInv := by
  refine ⟨fun k => ⟨(h.1 k).1, (h.1 k).2.1, ?_⟩, h.2⟩
  simp only [State.oscAt, State.setOsc_osc, State.setOsc_gsync, Six.get_set]
  split
  · exact ho.trans (h.1 i).2.2
  · exact (h.1 k).2.2

/-- A noise generator may be replaced by one with the same sync flag. -/
theorem copyInv_setNoise (h : s.copyInv) {j : Gen} {n : Noise} (hn : n.sync = (s.noise.get j).sync) :
    (s.setNoise j n).copyInv := by
  refine ⟨h.1, fun k => ?_⟩
  simp only [State.noiseAt, State.setNoise_noise, State.setNoise_gsync, Two.get_set]
  split
  · exact hn.trans (h.2 j)
  · exact h.2 k

/-- The amplifiers may be replaced by ones with the same mute and sync flags. -/
theorem copyInv_of_amp (h : s.copyInv) {v : Six Amp}
    (hv : ∀ k, (v.get k).mute = (s.amp.get k).mute ∧ (v.get k).sync = (s.amp.get k).sync) :
    State.copyInv { s with amp := v } :=
  ⟨fun k => ⟨(hv k).1.trans (h.1 k).1, (hv k).2.trans (h.1 k).2.1, (h.1 k).2.2⟩, h.2⟩

/-- An amplifier may be replaced by one with the same mute and sync flags. -/
theorem copyInv_setAmp (h : s.copyInv) {i : Chan} {a : Amp} (hm : a.mute = (s.amp.get i).mute)
    (hs : a.sync = (s.amp.get i).sync) : (s.setAmp i a).copyInv := by
  refine copyInv_of_amp h fun k => ?_
  rw [Six.get_set]
  split
  · next hk => subst hk; exact ⟨hm, hs⟩
  · exact ⟨rfl, rfl⟩

/-! ### Bus operations -/

theorem copyInv_addressWrite (reg : Byte) (s : State) (h : s.copyInv) : (s.addressWrite reg).copyInv := by
  obtain ⟨-, -, hosc, hnoise, hamp, henable, hgsync, -⟩ := addressWrite_spec reg s
  simpa only [State.copyInv, State.ampAt, State.oscAt, State.noiseAt, hosc, hnoise, hamp, henable, hgsync] using h

/-- WD_CTRL brings the copies in agreement from every state. -/
theorem copyInv_globalControl (en sy : Bool) (s : State) : (s.globalControl en sy).copyInv := by
  simp [State.copyInv, State.globalControl, ampMute, ampSync]

theorem copyInv_regWrite (a : BitVec 5) (d : Byte) (s : State) (h : s.copyInv) : (s.regWrite a d).copyInv := by
  rcases regWrite_cases a d s with e | ⟨i, l, r, e⟩ | ⟨i, v, e⟩ | ⟨i, j, u, v, e⟩ | ⟨t, e⟩ | ⟨n, e⟩ |
      ⟨m, n, e⟩ | ⟨j, e⟩ | ⟨en, sy, e⟩ <;> rw [e]
  · exact h
  · exact copyInv_setAmp h rfl rfl
  · exact copyInv_setOsc h (oscSetOffset_sync _ _ _)
  · exact copyInv_setOsc (copyInv_setOsc h (oscSetOctave_sync _ _ _)) (oscSetOctave_sync _ _ _)
  · exact copyInv_of_amp h fun k => by rw [Six.get_ofFn]; exact ⟨rfl, rfl⟩
  · exact copyInv_of_amp h fun k => by rw [Six.get_ofFn]; exact ⟨rfl, rfl⟩
  · refine ⟨h.1, fun k => ?_⟩
    fin_cases k
    · exact h.2 0
    · exact h.2 1
  · exact h
  · exact copyInv_globalControl en sy s

/-! ### The sample pipeline -/

theorem copyInv_fireTrig (i : Chan) (h : s.copyInv) : (s.fireTrig i).copyInv := by
  obtain ⟨⟨-, henable, hgsync, -⟩, hosc, hamp⟩ := fireTrig_frame i s
  refine ⟨fun k => ?_, fun j => ?_⟩
  · simpa only [State.ampAt, State.oscAt, hosc, hamp, henable, hgsync] using h.1 k
  · rw [State.noiseAt, fireTrig_noise, hgsync]
    split
    · exact (noiseTrigger_sync _).trans (h.2 j)
    · exact h.2 j

theorem copyInv_crossing (i : Chan) (s : State) (h : s.copyInv) : (s.crossing i).copyInv := by
  have hflip : (s.setOsc i (oscFlip s.thresh (s.oscAt i))).copyInv := copyInv_setOsc h rfl
  have hfire := copyInv_fireTrig i hflip
  unfold State.crossing
  exact copyInv_setOsc hfire (oscApplyIfNew_keeps _ _).2.1

theorem copyInv_oscTick (i : Chan) (h : s.copyInv) : (s.oscTick i).copyInv := by
  unfold State.oscTick
  split
  · exact h
  · exact whileDo_keeps (copyInv_crossing i) _ (copyInv_setOsc h rfl)

theorem copyInv_sampleOnce (s : State) (h : s.copyInv) : s.sampleOnce.copyInv :=
  subTicks_keeps (P := fun m => m.st.copyInv)
    (fun _ _ hm => copyInv_setNoise hm (noiseTick_mode_sync _ _ _).2)
    (fun i _ hm => copyInv_setAmp (copyInv_oscTick i hm) rfl rfl) h

/-! ### Every operation and every step -/

theorem copyInv_reloadAll (h : s.copyInv) : s.reloadAll.copyInv := by
  simpa [State.copyInv, State.reloadAll, oscReload] using h

theorem copyInv_exec {i : Instr} {t : State} (e : exec i s = .next t) (h : s.copyInv) : t.copyInv :=
  exec_keeps copyInv_addressWrite copyInv_regWrite copyInv_sampleOnce (fun _ _ _ h => copyInv_reloadAll h)
    (fun _ _ _ => id) (fun _ _ _ => id) e h

end

/-- Settles O58: a step is idle or one operation, and every operation keeps the copies in agreement. -/
theorem copyInvariantIsKept : Obligations.CopyInvariantIsKept := by
  intro s t h hstep
  rcases step_cases hstep with ⟨-, rfl⟩ | ⟨_, _, _, -, -, e⟩
  · exact h
  · exact copyInv_exec e h

/-! ### The output enable -/

/-- A register write writes the enable at address 28 only, with bit 0 of its byte. -/
theorem regWrite_enable (a : BitVec 5) (d : Byte) (s : State) :
    (s.regWrite a d).enable = if a = 28 then bitOf d 0 else s.enable := by
  revert a
  refine reg_cases fun n => ?_
  fin_cases n <;> rfl

@[simp] theorem addressWrite_enable (reg : Byte) (s : State) : (s.addressWrite reg).enable = s.enable := by
  obtain ⟨-, -, -, -, -, henable, -⟩ := addressWrite_spec reg s
  exact henable

@[simp] theorem sampleOnce_enable (s : State) : s.sampleOnce.enable = s.enable := by
  obtain ⟨-, -, -, -, -, henable, -⟩ := sampleOnce_spec s
  exact henable

/-- CLEAR ends with the write of 0 to register 28, which disables the output (90_conflicts.md C5). -/
@[simp] theorem clearAll_enable (s : State) : s.clearAll.enable = false := by
  simp only [State.clearAll, State.writeAddressData, addressWrite_enable, regWrite_enable]
  rfl

/-- Only WD_CTRL with bit 0 set leads from a disabled output to an enabled one. -/
theorem exec_enable_of_disabled {i : Instr} {s t : State} (e : exec i s = .next t) (h : s.enable = false)
    (hi : ∀ sy, i ≠ .wdCtrl true sy) : t.enable = false := by
  rcases exec_cases i s with
      ⟨reg, -, e'⟩ | ⟨l, d, rfl, e'⟩ | ⟨n, -, e'⟩ | ⟨-, e'⟩ | ⟨hz, -, e'⟩ | ⟨hz, -, e'⟩ | ⟨n, -, e'⟩ <;>
    rw [e'] at e
  · cases e; exact (addressWrite_enable reg s).trans h
  · cases e
    rw [regWrite_enable]
    split
    · next hl =>
      subst hl
      by_contra hb
      exact hi (bitOf d 1) (congrArg (Instr.wdCtrl · _) (Bool.eq_true_of_not_eq_false hb))
    · exact h
  · cases e; exact iter_keeps (P := fun u : State => u.enable = false) (fun u hu => (sampleOnce_enable u).trans hu)
      n h
  · cases e; exact clearAll_enable s
  · split at e <;> cases e; exact h
  · split at e <;> cases e; exact h
  · split at e <;> cases e; exact h

/-- Settles O50: the output stays disabled, the copies stay in agreement, so every amplifier is muted. -/
theorem onlyGlobalControlUnmutes : Obligations.OnlyGlobalControlUnmutes := by
  intro i s t h hen hi e
  have hcopy : t.copyInv := copyInv_exec e h
  have hdis : t.enable = false := exec_enable_of_disabled e hen hi
  refine ⟨hcopy, hdis, fun c => ampOut_of_silent c t (.inl ?_)⟩
  have hmute : (t.amp.get c).mute = !t.enable := (hcopy.1 c).1
  rw [hmute, hdis]
  rfl

end Sys2Proof.Machine
end

section
/-! PROOFS. An address write by envelope generator (10_state.md R46, 20_memory.md R61). -/

namespace Sys2Proof.Machine

/-- The address a byte selects is the byte modulo 32. -/
theorem regOfByte_toNat (reg : Byte) : (regOfByte reg).toNat = reg.toNat % 32 := by
  simp [regOfByte]

/-- An address write clocks the external clock of envelope generator j at address 24 + j, and of no other. -/
theorem addressWrite_envAt (reg : Byte) (s : State) (j : Gen) :
    (s.addressWrite reg).envAt j =
      if reg.toNat % 32 = 24 + j.val then externalClock s.params (s.envAt j) else s.envAt j := by
  obtain ⟨-, henv, -⟩ := addressWrite_spec reg s
  have h24 : regOfByte reg = 24 ↔ reg.toNat % 32 = 24 := by rw [← regOfByte_toNat, ← BitVec.toNat_inj]; rfl
  have h25 : regOfByte reg = 25 ↔ reg.toNat % 32 = 25 := by rw [← regOfByte_toNat, ← BitVec.toNat_inj]; rfl
  simp only [State.envAt, henv, h24, h25]
  split
  · next h => fin_cases j <;> simp [h, Two.get_set]
  · next h =>
    split
    · next h' => fin_cases j <;> simp [h', Two.get_set]
    · next h' => fin_cases j <;> simp [h, h']

/-- Settles O10, from what an address write does; the gated clock is `externalClock`'s own condition. -/
theorem addressWriteSetsLatchAndClocksEnvelope : Obligations.AddressWriteSetsLatchAndClocksEnvelope := by
  intro reg s
  obtain ⟨hlatch, -, hrest⟩ := addressWrite_spec reg s
  refine ⟨s.addressWrite reg, rfl, ?_, fun j => ?_, hrest⟩
  · rw [hlatch, regOfByte_toNat]
  · rw [addressWrite_envAt, externalClock, ite_and]

end Sys2Proof.Machine
end

section
/-! PROOFS. The invariants at power-on (70_reset_and_hazards.md R300), each for every choice of parameters and
configuration it holds for. -/

namespace Sys2Proof.Machine

section
variable (p : Params) (c : Cfg)

theorem powerOn_oscAt (i : Chan) : (State.powerOn p c).oscAt i = oscPowerOn p c.clockHz := Six.get_ofFn _ i

theorem powerOn_ampAt (i : Chan) : (State.powerOn p c).ampAt i = ampPowerOn := Six.get_ofFn _ i

theorem powerOn_noiseAt (j : Gen) : (State.powerOn p c).noiseAt j = noisePowerOn p := by
  fin_cases j <;> rfl

theorem powerOn_envAt (j : Gen) : (State.powerOn p c).envAt j = envPowerOn := by
  fin_cases j <;> rfl

theorem phaseCount_pos (e : EnvEntry) : 0 < phaseCount e := by
  unfold phaseCount; split <;> decide

theorem powerOn_oscInv : (State.powerOn p c).oscInv := fun i => by
  rw [powerOn_oscAt]; exact ⟨rfl, nofun, nofun⟩

theorem powerOn_bufferInv : (State.powerOn p c).bufferInv := fun i => by
  rw [powerOn_oscAt]; exact ⟨fun _ => rfl, fun _ => ⟨rfl, rfl⟩⟩

theorem powerOn_noiseInv : (State.powerOn p c).noiseInv := fun j => by
  rw [powerOn_noiseAt]; exact nofun

theorem powerOn_envInv : (State.powerOn p c).envInv := fun j => by
  rw [powerOn_envAt]; exact ⟨phaseCount_pos _, fun _ => ⟨rfl, rfl, rfl, rfl⟩, nofun⟩

theorem powerOn_copyInv : (State.powerOn p c).copyInv :=
  ⟨fun i => by rw [powerOn_ampAt, powerOn_oscAt]; exact ⟨rfl, rfl, rfl⟩,
    fun j => by rw [powerOn_noiseAt]; rfl⟩

theorem accBounded_zero : accBounded p 0 := ⟨le_rfl, by simp; positivity⟩

theorem accInRange_zero : accInRange p 0 := ⟨le_rfl, by positivity⟩

end

/-- Settles O54: the generators' invariants hold at power-on for every choice of parameters and configuration,
those of the configuration and the filter at the defaults. -/
theorem invariantsHoldAtReset : Obligations.InvariantsHoldAtReset :=
  ⟨powerOn_oscInv _ _, powerOn_bufferInv _ _, powerOn_noiseInv _ _, powerOn_envInv _ _, powerOn_copyInv _ _,
    (by decide), ⟨by decide, accBounded_zero _, accBounded_zero _⟩,
    ⟨by decide, accInRange_zero _, accInRange_zero _⟩⟩

end Sys2Proof.Machine
end

section
/-! PROOFS. The output stream: only the sample pipeline emits, one frame for each SAMPLE it runs (20_memory.md
R60, 45_device_pipeline.md R245), and a frame is its four bytes (20_memory.md R67). -/

namespace Sys2Proof.Machine

/-! ### The frames an operation emits -/

/-- How many frames an operation emits: SAMPLE one, GEN its count, every other operation none. -/
def frameCount : Instr → Nat
  | .sample => 1
  | .gen n => n
  | _ => 0

theorem frameCount_of_ne {i : Instr} (hs : i ≠ .sample) (hg : ∀ n, i ≠ .gen n) : frameCount i = 0 := by
  unfold frameCount
  split
  · exact absurd rfl hs
  · next n => exact absurd rfl (hg n)
  · rfl

@[simp] theorem frameCount_decodeData (l : BitVec 5) (d : Byte) : frameCount (decodeData l d) = 0 := by
  refine reg_cases (P := fun l => frameCount (decodeData l d) = 0) (fun n => ?_) l
  fin_cases n <;> rfl

@[simp] theorem addressWrite_out (reg : Byte) (s : State) : (s.addressWrite reg).out = s.out := by
  obtain ⟨-, -, -, -, -, -, -, -, -, -, -, hout, -⟩ := addressWrite_spec reg s
  exact hout

@[simp] theorem regWrite_out (a : BitVec 5) (d : Byte) (s : State) : (s.regWrite a d).out = s.out := by
  obtain ⟨-, -, -, -, -, hout, -⟩ := regWrite_frame a d s
  exact hout

@[simp] theorem clearAll_out (s : State) : s.clearAll.out = s.out :=
  clearAll_keeps (P := fun u => u.out = s.out) (fun reg u hu => (addressWrite_out reg u).trans hu)
    (fun a d u hu => (regWrite_out a d u).trans hu) rfl

/-- A SAMPLE appends one frame. -/
theorem sampleOnce_out (s : State) : ∃ f : Frame, s.sampleOnce.out = s.out ++ [f] := by
  obtain ⟨-, -, -, -, -, -, -, -, -, -, -, -, hout⟩ := sampleOnce_spec s
  exact ⟨_, hout⟩

/-- n SAMPLEs append n frames. -/
theorem iter_sampleOnce_out (n : Nat) (s : State) :
    ∃ fs : List Frame, (iter n State.sampleOnce s).out = s.out ++ fs ∧ fs.length = n := by
  induction n generalizing s with
  | zero => exact ⟨[], (List.append_nil _).symm, rfl⟩
  | succ n ih =>
    obtain ⟨f, hf⟩ := sampleOnce_out s
    obtain ⟨fs, hout, hlen⟩ := ih s.sampleOnce
    refine ⟨f :: fs, ?_, congrArg (· + 1) hlen⟩
    rw [iter_succ, hout, hf, List.append_assoc, List.singleton_append]

/-- An operation that answers a next state appends its count of frames to the stream. -/
theorem exec_out {i : Instr} {s t : State} (h : exec i s = .next t) :
    ∃ fs : List Frame, t.out = s.out ++ fs ∧ fs.length = frameCount i := by
  have none_of : t.out = s.out → frameCount i = 0 →
      ∃ fs : List Frame, t.out = s.out ++ fs ∧ fs.length = frameCount i :=
    fun hout hi => ⟨[], by rw [hout, List.append_nil], hi.symm⟩
  rcases exec_cases i s with
      ⟨reg, rfl, e⟩ | ⟨l, d, rfl, e⟩ | ⟨n, hi, e⟩ | ⟨rfl, e⟩ | ⟨hz, rfl, e⟩ | ⟨hz, rfl, e⟩ | ⟨n, rfl, e⟩ <;>
    rw [e] at h
  · cases h; exact none_of (addressWrite_out reg s) rfl
  · cases h; exact none_of (regWrite_out l d s) (frameCount_decodeData l d)
  · cases h
    have hn : frameCount i = n := by
      rcases hi with ⟨rfl, rfl⟩ | rfl <;> rfl
    rw [hn]
    exact iter_sampleOnce_out n s
  · cases h; exact none_of (clearAll_out s) rfl
  · split at h <;> cases h; exact none_of rfl rfl
  · split at h <;> cases h; exact none_of rfl rfl
  · split at h <;> cases h; exact none_of rfl rfl

/-- Settles O42: the frames an operation appends are as many as its `frameCount`. -/
theorem outputStreamIsAppendOnly : Obligations.OutputStreamIsAppendOnly := by
  intro i s t h
  obtain ⟨fs, hout, hlen⟩ := exec_out h
  refine ⟨fs, hout, ?_, ?_, fun hs hg => ?_⟩
  · rintro rfl; exact hlen
  · rintro n rfl; exact hlen
  · exact List.eq_nil_of_length_eq_zero (hlen.trans (frameCount_of_ne hs hg))

/-! ### The bytes of a frame -/

/-- A sample is its low byte and 256 times its high byte. -/
theorem sample_toNat_eq_bytes (x : Sample) :
    x.toNat = (x.extractLsb' 0 8).toNat + 256 * (x.extractLsb' 8 8).toNat := by
  have hlt : x.toNat < 2 ^ 16 := x.isLt
  simp only [BitVec.extractLsb'_toNat, Nat.shiftRight_eq_div_pow]
  omega

/-- Settles O39: each side is its low and its high byte, and the spec's example frames are computed. -/
theorem frameBytesAreLittleEndianLeftFirst : Obligations.FrameBytesAreLittleEndianLeftFirst :=
  ⟨fun f => ⟨_, _, _, _, rfl, sample_toNat_eq_bytes f.left, sample_toNat_eq_bytes f.right⟩,
    by decide, by decide, by decide⟩

end Sys2Proof.Machine
end

section
/-! PROOFS. Decoding and encoding (30_encoding.md R80 to R86): the encoder is a right inverse of the decoder, the
opcode table selects one row for every key, and the bits R86 ignores reach no field. -/

namespace Sys2Proof

/-! ### Decoding what the encoder writes -/

@[simp] theorem decode_dataKey (l : BitVec 5) (d : Byte) : decode (.dk (dataKey l d)) = .ok (decodeData l d) :=
  congrArg Except.ok (decodeKey_dataKey l d)

@[simp] theorem decode_addressKey (l : BitVec 5) (d : Byte) :
    decode (.dk (busKey l (addressWord d))) = .ok (.wa d) :=
  congrArg Except.ok (decodeKey_addressWord l d)

/-- Settles O3: an address key decodes to its WA, a data key to the data write of its latch, whose fields are read
back from the packed byte, and a host record is its own op and arg. -/
theorem decodeOfEncodeIsTheOperation : Obligations.DecodeOfEncodeIsTheOperation := by
  intro i
  cases i with
  | wa reg => exact decode_addressKey 0 reg
  | wdAmp0 volL volR | wdAmp1 volL volR | wdAmp2 volL volR | wdAmp3 volL volR | wdAmp4 volL volR
  | wdAmp5 volL volR | wdOct01 octA octB | wdOct23 octA octB | wdOct45 octA octB | wdNoiseMode modeA modeB
  | wdCtrl en sy => simp [encode, decodeData]
  | wdToneEn t =>
    exact (decode_dataKey 20 _).trans (congrArg (Except.ok ∘ Instr.wdToneEn) (Machine.channelBits_zeroExtend t))
  | wdNoiseEn n =>
    exact (decode_dataKey 21 _).trans (congrArg (Except.ok ∘ Instr.wdNoiseEn) (Machine.channelBits_zeroExtend n))
  | wdFreq0 v | wdFreq1 v | wdFreq2 v | wdFreq3 v | wdFreq4 v | wdFreq5 v => exact decode_dataKey _ v
  | wdEnvA ctrl | wdEnvB ctrl => exact decode_dataKey _ ctrl
  | wdNop6 | wdNop7 | wdNop14 | wdNop15 | wdNop19 | wdNop23 | wdNop26 | wdNop27 | wdNop29 | wdNop30
  | wdNop31 => exact decode_dataKey _ 0
  | sample | gen _ | clear | setClock _ | setRate _ | setOversample _ => rfl

/-! ### The rows of the opcode table -/

/-- No row looks at the data byte: every mask lies in the latch and the address line. -/
theorem keyRows_mask : ∀ r ∈ keyRows, r.mask &&& 0x3F00 = r.mask := by decide

/-- The rows a key matches are those of the key without its data byte. -/
theorem filter_keyRows_mask (k : Key) :
    keyRows.filter (·.matchesKey (k &&& 0x3F00)) = keyRows.filter (·.matchesKey k) := by
  refine List.filter_congr fun r hr => ?_
  simp only [KeyRow.matchesKey, BitVec.and_assoc, BitVec.and_comm 0x3F00 r.mask, keyRows_mask r hr]

/-- An address key under the mask of the WD rows is the address key of its latch with byte 0. -/
theorem addressKey_mask (l : BitVec 5) (reg : Byte) :
    busKey l (addressWord reg) &&& 0x3F00 = busKey l (addressWord 0) := by
  have h : (l ++ (1#1 ++ reg)) &&& (31#5 ++ (1#1 ++ 0#8)) = l ++ (1#1 ++ 0#8) := by
    rw [BitVec.and_append, BitVec.and_append, BitVec.and_zero, BitVec.and_self,
      show l &&& 31#5 = l from BitVec.and_allOnes]
  exact h

/-- The mnemonic of a data write is that of its register, whatever the byte. -/
theorem mnemonic_decodeData (l : BitVec 5) (d : Byte) : (decodeData l d).mnemonic = (decodeData l 0).mnemonic := by
  refine Machine.reg_cases (P := fun l => (decodeData l d).mnemonic = (decodeData l 0).mnemonic) (fun n => ?_) l
  fin_cases n <;> rfl

theorem mnemonics_addressKey : ∀ l : BitVec 5,
    (keyRows.filter (·.matchesKey (busKey l (addressWord 0)))).map KeyRow.mnemonic = ["WA"] := by decide

theorem mnemonics_dataKey : ∀ l : BitVec 5,
    (keyRows.filter (·.matchesKey (dataKey l 0))).map KeyRow.mnemonic = [(decodeData l 0).mnemonic] := by decide

/-- The rows a key matches are one row, with the decoded operation's mnemonic. -/
theorem mnemonics_of_key (k : Key) :
    (keyRows.filter (·.matchesKey k)).map KeyRow.mnemonic = [(decodeKey k).mnemonic] := by
  rw [← busKey_fields k, ← filter_keyRows_mask]
  rcases busWord_cases (keyBus k) with ⟨d, hd⟩ | ⟨reg, hreg⟩
  · rw [hd, decodeKey_dataWord, mnemonic_decodeData, ← mnemonics_dataKey]
    exact congrArg (fun q => (keyRows.filter (·.matchesKey q)).map KeyRow.mnemonic) (Laws.Row.dataKey_mask _ d)
  · rw [hreg, decodeKey_addressWord, addressKey_mask, mnemonics_addressKey]
    rfl

/-- A host record whose op is no reserved one decodes, whatever its arg. -/
theorem exists_decodeHost_of_lt {op : BitVec 4} (h : op.toNat < 6) (arg : Nat) : ∃ i, decodeHost op arg = .ok i := by
  rcases decodeHost_cases op arg with ⟨-, e⟩ | ⟨-, e⟩ | ⟨-, e⟩ | ⟨-, e⟩ | ⟨-, e⟩ | ⟨-, e⟩ | ⟨h6, -⟩
  exacts [⟨_, e⟩, ⟨_, e⟩, ⟨_, e⟩, ⟨_, e⟩, ⟨_, e⟩, ⟨_, e⟩, absurd h6 (Nat.not_le.2 h)]

/-- Settles O4: a key's rows are those of its latch and address line, which leave 64 keys to look up; a host
record's rows are read off the decoder's cases. -/
theorem everyWordSelectsOneTableRow : Obligations.EveryWordSelectsOneTableRow := by
  refine ⟨fun k => ?_, fun op arg i hi => ?_, fun m op arg hrow => ?_⟩
  · obtain ⟨r, hr, hm⟩ := List.map_eq_singleton_iff.1 (mnemonics_of_key k)
    exact ⟨r, hr, hm.symm⟩
  · rcases decodeHost_cases op arg with ⟨rfl, e⟩ | ⟨rfl, e⟩ | ⟨rfl, e⟩ | ⟨rfl, e⟩ | ⟨rfl, e⟩ | ⟨rfl, e⟩ | ⟨-, e⟩ <;>
      rw [e] at hi <;> cases hi
    exacts [Laws.Row.sample, Laws.Row.gen arg, Laws.Row.clear, Laws.Row.setClock arg, Laws.Row.setRate arg,
      Laws.Row.setOversample arg]
  · have hops : ∀ row ∈ hostRows, row.2.toNat < 6 := by decide
    exact exists_decodeHost_of_lt (hops (m, op) hrow) arg

/-! ### The ignored bits -/

/-- A field within a mask is the same in bytes that agree under the mask. -/
theorem extract_eq_of_mask {d e m : Byte} {k n : Nat} (h : d &&& m = e &&& m)
    (hm : m.extractLsb' k n = BitVec.allOnes n) : d.extractLsb' k n = e.extractLsb' k n := by
  calc d.extractLsb' k n = (d &&& m).extractLsb' k n := by rw [BitVec.extractLsb'_and, hm, BitVec.and_allOnes]
    _ = (e &&& m).extractLsb' k n := by rw [h]
    _ = e.extractLsb' k n := by rw [BitVec.extractLsb'_and, hm, BitVec.and_allOnes]

/-- A bit of a mask is the same in bytes that agree under the mask. -/
theorem bitOf_eq_of_mask {d e m : Byte} {i : Nat} (h : d &&& m = e &&& m) (hm : m.getLsbD i = true) :
    bitOf d i = bitOf e i := by
  have hi : (d &&& m).getLsbD i = (e &&& m).getLsbD i := by rw [h]
  simpa only [bitOf, BitVec.getLsbD_and, hm, Bool.and_true] using hi

end Sys2Proof

namespace Sys2Proof.Machine

/-- Control bytes that agree but for bit 6 have the same fields. -/
theorem ctrl_fields_eq_of_mask {d e : Byte} (h : d &&& 0xBF = e &&& 0xBF) :
    ctrlInvert d = ctrlInvert e ∧ ctrlWaveform d = ctrlWaveform e ∧ ctrlRes3 d = ctrlRes3 e ∧
      ctrlExtClock d = ctrlExtClock e ∧ ctrlEnable d = ctrlEnable e :=
  ⟨bitOf_eq_of_mask h (by decide), extract_eq_of_mask h (by decide), bitOf_eq_of_mask h (by decide),
    bitOf_eq_of_mask h (by decide), bitOf_eq_of_mask h (by decide)⟩

/-- Bit 6 of a control byte reaches nothing that is loaded. -/
theorem envLoad_eq_of_mask {d e : Byte} (h : d &&& 0xBF = e &&& 0xBF) (g : Env) : envLoad d g = envLoad e g := by
  obtain ⟨hinv, hwave, hres, hext, -⟩ := ctrl_fields_eq_of_mask h
  simp only [envLoad, hinv, hwave, hres, hext]

/-- Bit 6 of a control byte reaches nothing that is written but the buffered byte. -/
theorem envSetControl_eq_of_mask {d e : Byte} (h : d &&& 0xBF = e &&& 0xBF) (g : Env) :
    { envSetControl d g with pendByte := 0 } = { envSetControl e g with pendByte := 0 } := by
  obtain ⟨hinv, hwave, hres, hext, hen⟩ := ctrl_fields_eq_of_mask h
  simp only [envSetControl, envDisable, envEnable, envLoad_eq_of_mask h, hinv, hwave, hres, hext, hen]
  split
  · rfl
  · split <;> rfl

/-- Settles O7: every field the decoder, the latch and a control write take lies within the mask its clause keeps. -/
theorem ignoredBitsHaveNoEffect : Obligations.IgnoredBitsHaveNoEffect := by
  refine ⟨fun l d e hl h => ?_, fun l d e hl h => ?_, fun d e h => ?_, fun d e h => ?_, fun reg reg' s h => ?_,
    fun d e g h => ⟨envLoad_eq_of_mask h g, envSetControl_eq_of_mask h g⟩⟩
  · have hlow : lowOctave d = lowOctave e := extract_eq_of_mask h (by decide)
    have hhigh : highOctave d = highOctave e := extract_eq_of_mask h (by decide)
    rcases hl with rfl | rfl | rfl <;> simp [decodeData, hlow, hhigh]
  · have hbits : channelBits d = channelBits e := extract_eq_of_mask h (by decide)
    rcases hl with rfl | rfl <;> simp [decodeData, hbits]
  · have hlow : lowMode d = lowMode e := extract_eq_of_mask h (by decide)
    have hhigh : highMode d = highMode e := extract_eq_of_mask h (by decide)
    simp [decodeData, hlow, hhigh]
  · have hen : bitOf d 0 = bitOf e 0 := bitOf_eq_of_mask h (by decide)
    have hsy : bitOf d 1 = bitOf e 1 := bitOf_eq_of_mask h (by decide)
    simp [decodeData, hen, hsy]
  · have hreg : regOfByte reg = regOfByte reg' := extract_eq_of_mask h (by decide)
    simp only [exec, execWa, State.addressWrite, hreg]

end Sys2Proof.Machine
end

section
/-! PROOFS. No rule reads the requests that still wait: each can be run with other ones (20_memory.md R68, R69). -/

namespace Sys2Proof.Machine

/-- `s` with other requests waiting. -/
def State.withPending (q : List Request) (s : State) : State := { s with pending := q }

@[simp] theorem State.withPending_latch (q : List Request) (s : State) : (s.withPending q).latch = s.latch := rfl

@[simp] theorem State.withPending_withPending (q r : List Request) (s : State) :
    (s.withPending q).withPending r = s.withPending r := rfl

theorem withPending_of_pending_eq {q : List Request} {s : State} (h : s.pending = q) : s.withPending q = s := by
  subst h; rfl

section
variable (q : List Request)

/-! ### The bus -/

@[simp] theorem withPending_addressWrite (reg : Byte) (s : State) :
    (s.addressWrite reg).withPending q = (s.withPending q).addressWrite reg := by
  unfold State.addressWrite
  dsimp only
  split
  · rfl
  · split <;> rfl

@[simp] theorem withPending_regWrite (a : BitVec 5) (d : Byte) (s : State) :
    (s.regWrite a d).withPending q = (s.withPending q).regWrite a d := by
  unfold State.regWrite
  split <;> rfl

@[simp] theorem withPending_writeAddressData (a d : Byte) (s : State) :
    (s.writeAddressData a d).withPending q = (s.withPending q).writeAddressData a d := by
  simp only [State.writeAddressData, withPending_regWrite, withPending_addressWrite]

/-! ### The sample pipeline -/

/-- A map that turns one condition and body into another turns the loops into each other. -/
theorem whileDo_map {α β : Type} {c : α → Bool} {f : α → α} {d : β → Bool} {g : β → β} (r : α → β)
    (hc : ∀ a, d (r a) = c a) (hf : ∀ a, r (f a) = g (r a)) (n : Nat) (a : α) :
    r (whileDo n c f a) = whileDo n d g (r a) := by
  induction n generalizing a with
  | zero => rfl
  | succ n ih =>
    simp only [whileDo, hc, ← hf, ← ih]
    split <;> rfl

@[simp] theorem withPending_crossing (i : Chan) (s : State) :
    (s.crossing i).withPending q = (s.withPending q).crossing i := by
  fin_cases i <;> rfl

@[simp] theorem withPending_crossings (i : Chan) (s : State) :
    (s.crossings i).withPending q = (s.withPending q).crossings i :=
  whileDo_map (d := fun t : State => decide (t.thresh ≤ (t.oscAt i).counter)) (State.withPending q)
    (fun _ => rfl) (withPending_crossing q i) _ s

@[simp] theorem withPending_oscTick (i : Chan) (s : State) :
    (s.oscTick i).withPending q = (s.withPending q).oscTick i := by
  unfold State.oscTick
  rw [apply_ite (State.withPending q), withPending_crossings]
  rfl

@[simp] theorem withPending_ampTick (i : Chan) (s : State) :
    (s.ampTick i).withPending q = (s.withPending q).ampTick i := by
  unfold State.ampTick
  rw [← withPending_oscTick]
  rfl

/-- A SAMPLE under way with other requests waiting. -/
def Mix.withPending (m : Mix) : Mix := { m with st := m.st.withPending q }

@[simp] theorem withPending_mixChannel (i : Chan) (m : Mix) :
    (mixChannel i m).withPending q = mixChannel i (m.withPending q) := by
  unfold mixChannel Mix.withPending
  dsimp only
  rw [← withPending_ampTick]
  rfl

@[simp] theorem withPending_subTick (m : Mix) : (subTick m).withPending q = subTick (m.withPending q) := by
  simp only [subTick, channels, List.foldl_cons, List.foldl_nil, withPending_mixChannel]
  rfl

@[simp] theorem withPending_sampleOnce (s : State) :
    s.sampleOnce.withPending q = (s.withPending q).sampleOnce := by
  have h : s.subTicks.withPending q = (s.withPending q).subTicks :=
    iter_map (Mix.withPending q) (withPending_subTick q) _ _
  rw [State.sampleOnce, State.sampleOnce, ← h]
  rfl

end

end Sys2Proof.Machine
end

section
/-! PROOFS. Requests and programs: what one request of each kind does, the refusals of those that are no operation
(30_encoding.md R84, R88; 60_exceptions.md R281), and that GEN and CLEAR are the programs they stand for
(30_encoding.md R91; 45_device_pipeline.md R245, R255). -/

namespace Sys2Proof.Machine

section
variable {s : State} {rest : List Request}

/-! ### One request -/

/-- An address word is WA of its byte. -/
theorem step_addressWord {reg : Byte} (hp : s.pending = .bus (addressWord reg) :: rest) :
    step s = .next ((s.addressWrite reg).withPending rest) := by
  have hop : operationOf s.latch (.bus (addressWord reg)) = .ok (.wa reg) := by
    simp only [operationOf, encodedOfRequest, decode_addressKey]
  rw [step_of_operationOf_ok hp hop, withPending_addressWrite]
  rfl

/-- A data word is the register write of the register the latch selects (45_device_pipeline.md R231). -/
theorem step_dataWord {d : Byte} (hp : s.pending = .bus (dataWord d) :: rest) :
    step s = .next ((s.regWrite s.latch d).withPending rest) := by
  have hop : operationOf s.latch (.bus (dataWord d)) = .ok (decodeData s.latch d) := by
    simp only [operationOf, encodedOfRequest, decode, decodeKey_dataWord]
  rw [step_of_operationOf_ok hp hop, exec_decodeData, withPending_regWrite]
  rfl

/-- A record of op 0 is SAMPLE. -/
theorem step_sampleRecord {arg : Nat} (hp : s.pending = .host 0 arg :: rest) :
    step s = .next (s.sampleOnce.withPending rest) := by
  rw [step_of_operationOf_ok hp rfl, withPending_sampleOnce]
  rfl

/-! ### The programs of GEN and CLEAR -/

theorem stepMany_succ_of_next {t : State} (h : step s = .next t) (n : Nat) :
    stepMany (n + 1) s = stepMany n t := by
  rw [stepMany, h]

/-- The two words of `wad` are the write of the byte to the address (30_encoding.md R91). -/
theorem stepMany_wad {a d : Byte} (hp : s.pending = AsmLine.requests (.wad a d) ++ rest) (n : Nat) :
    stepMany (n + 2) s = stepMany n ((s.writeAddressData a d).withPending rest) := by
  have hlatch : (s.addressWrite a).latch = regOfByte a := (addressWrite_spec a s).1
  rw [stepMany_succ_of_next (step_addressWord hp), stepMany_succ_of_next (step_dataWord (rest := rest) rfl),
    State.withPending_latch, hlatch, State.writeAddressData, withPending_regWrite, withPending_regWrite,
    State.withPending_withPending]

/-- The writes of bytes to addresses, in order. -/
def State.writeAll (l : List (Byte × Byte)) (s : State) : State :=
  l.foldl (fun u p => u.writeAddressData p.1 p.2) s

@[simp] theorem withPending_writeAll (q : List Request) (l : List (Byte × Byte)) (s : State) :
    (s.writeAll l).withPending q = (s.withPending q).writeAll l :=
  (List.foldl_hom (State.withPending q) fun _ _ => (withPending_writeAddressData q _ _ _).symm).symm

/-- A list of `wad`s is its writes. -/
theorem stepMany_wads (l : List (Byte × Byte))
    (hp : s.pending = l.flatMap (fun p => AsmLine.requests (.wad p.1 p.2)) ++ rest) (n : Nat) :
    stepMany (n + 2 * l.length) s = stepMany n ((s.writeAll l).withPending rest) := by
  induction l generalizing s with
  | nil => exact congrArg (stepMany n) (withPending_of_pending_eq hp).symm
  | cons p l ih =>
    rw [List.flatMap_cons, List.append_assoc] at hp
    rw [List.length_cons, Nat.mul_succ, ← Nat.add_assoc, stepMany_wad hp, ih rfl]
    simp only [withPending_writeAll, State.withPending_withPending, withPending_writeAddressData]
    rfl

end

/-- The writes CLEAR makes: 2 to register 28, 0 to the other registers, 0 to register 28 (R255). -/
def clearWrites : List (Byte × Byte) := (28, 2) :: clearAddresses.map (·, 0) ++ [(28, 0)]

theorem clearAll_eq_writeAll (s : State) : s.clearAll = (s.writeAll clearWrites).addressWrite 0 := rfl

theorem clearProgram_eq_wads :
    clearProgram = clearWrites.flatMap (fun p => AsmLine.requests (.wad p.1 p.2)) ++ [.bus (addressWord 0)] := by
  simp [clearProgram, clearWrites, AsmLine.requests, List.flatMap_map]

/-- Settles O49: 33 writes of two words each, then one address write. -/
theorem clearIsItsBusProgram : Obligations.ClearIsItsBusProgram := by
  refine ⟨by decide, fun s rest hp => ?_⟩
  rw [clearProgram_eq_wads, List.append_assoc] at hp
  calc stepMany 67 s = stepMany 1 ((s.writeAll clearWrites).withPending (.bus (addressWord 0) :: rest)) :=
        stepMany_wads clearWrites hp 1
    _ = .next ((((s.writeAll clearWrites).withPending _).addressWrite 0).withPending rest) :=
        stepMany_succ_of_next (step_addressWord rfl) 0
    _ = .next (s.withPending rest).clearAll := by
        simp only [withPending_addressWrite, State.withPending_withPending, withPending_writeAll,
          clearAll_eq_writeAll]

/-- Settles O41, by induction on the count: the first record is one SAMPLE, which keeps the others waiting. -/
theorem genIsItsSampleProgram : Obligations.GenIsItsSampleProgram := by
  intro n
  induction n with
  | zero => exact fun s rest hp => congrArg Host.Outcome.next (withPending_of_pending_eq hp).symm
  | succ n ih =>
    intro s rest hp
    calc stepMany (n + 1) s = stepMany n (s.sampleOnce.withPending (genProgram n ++ rest)) :=
          stepMany_succ_of_next (step_sampleRecord hp) n
      _ = exec (.gen n) (s.sampleOnce.withPending rest) := ih _ rest rfl
      _ = exec (.gen (n + 1)) (s.withPending rest) := by rw [withPending_sampleOnce]; rfl

/-- n SAMPLEs keep the latch, the enables, the configuration, the parameters and the requests. -/
theorem iter_sampleOnce_keeps (n : Nat) (s : State) :
    (iter n State.sampleOnce s).latch = s.latch ∧ (iter n State.sampleOnce s).enable = s.enable ∧
      (iter n State.sampleOnce s).gsync = s.gsync ∧ (iter n State.sampleOnce s).cfg = s.cfg ∧
      (iter n State.sampleOnce s).params = s.params ∧ (iter n State.sampleOnce s).pending = s.pending := by
  induction n generalizing s with
  | zero => exact ⟨rfl, rfl, rfl, rfl, rfl, rfl⟩
  | succ n ih =>
    obtain ⟨-, -, -, -, hlatch, henable, hgsync, hcfg, hparams, hpending, -⟩ := sampleOnce_spec s
    simpa only [iter_succ, hlatch, henable, hgsync, hcfg, hparams, hpending] using ih s.sampleOnce

/-- Settles O40: GEN is the iterated SAMPLE, whose iterations add up. -/
theorem genEmitsExactlyCountFrames : Obligations.GenEmitsExactlyCountFrames := by
  refine ⟨fun n s => ?_, fun _ => rfl, fun _ => rfl, fun m n s t hm => ?_, fun _ => rfl⟩
  · obtain ⟨fs, hout, hlen⟩ := iter_sampleOnce_out n s
    exact ⟨iter n State.sampleOnce s, fs, rfl, hlen, hout, iter_sampleOnce_keeps n s⟩
  · cases hm
    exact congrArg Host.Outcome.next (iter_add m n State.sampleOnce s)

/-! ### Requests that are refused -/

/-- A request that stands for no operation is refused with its reason. -/
theorem step_of_operationOf_error {s : State} {r : Request} {rest : List Request} {e : Refusal}
    (hp : s.pending = r :: rest) (he : operationOf s.latch r = .error e) : step s = .refused e := by
  simp only [step, hp, he]

/-- A host record with op 0x6 to 0xF is no operation (30_encoding.md R88). -/
theorem operationOf_reserved (latch : BitVec 5) {op : BitVec 4} (h : 6 ≤ op.toNat) (arg : Nat) :
    operationOf latch (.host op arg) = .error .reservedHostOp := by
  have he : decodeHost op arg = .error (.reservedHostOp op) := by
    rcases decodeHost_cases op arg with ⟨rfl, -⟩ | ⟨rfl, -⟩ | ⟨rfl, -⟩ | ⟨rfl, -⟩ | ⟨rfl, -⟩ | ⟨rfl, -⟩ | ⟨-, e⟩
    iterate 6 exact absurd h (by decide)
    exact e
  simp only [operationOf, encodedOfRequest, decode, he, refusalOfDecode]

/-- Settles O8, from what each request stands for. -/
theorem requestsThatAreNoOperationAreRefused : Obligations.RequestsThatAreNoOperationAreRefused :=
  ⟨fun s _ arg _ hp h => step_of_operationOf_error hp (operationOf_reserved s.latch h arg),
    fun _ _ _ hp => step_of_operationOf_error hp rfl, fun _ _ _ hp => step_of_operationOf_ok hp rfl⟩

theorem clockLegal_iff (hz : Nat) : clockLegal hz = true ↔ 1 ≤ hz ∧ hz ≤ 2 ^ 25 := by
  simp only [clockLegal, Bool.and_eq_true, decide_eq_true_eq]

/-- Settles O47: a value outside its range is not legal, and each operation refuses what is not legal. -/
theorem configurationOutOfRangeIsRefused : Obligations.ConfigurationOutOfRangeIsRefused := by
  refine ⟨fun hz s h => if_neg ?_, fun hz s h => if_neg ?_, fun n s h => if_neg ?_⟩
  · rw [clockLegal_iff]; omega
  · rw [rateLegal_iff]; omega
  · rw [oversampleLegal_iff]; omega

/-- Settles O2: each word is decoded. -/
theorem knownWordsDecode : Obligations.KnownWordsDecode := by
  unfold Obligations.KnownWordsDecode
  decide

end Sys2Proof.Machine
end

section
/-! PROOFS. The period table (41_frequency_generator.md R100), and an oscillator tick in closed form (R106 to R109):
the loop of a tick is an iteration of crossings, read part by part. -/

namespace Sys2Proof.Machine

/-! ### The period table -/

/-- The formula's largest factors are octave 7 and offset 255, where 16 * 2^7 / 256 = 8. -/
theorem romFreq_formula_le {p : Params} (hp : p.freqRom = .formula) (hz : Nat) (oct : BitVec 3) (off : Byte) :
    romFreq p hz oct off ≤ 8 * hz := by
  have hoct : 2 ^ oct.toNat ≤ 2 ^ 7 := Nat.pow_le_pow_right two_pos (Nat.le_of_lt_succ oct.isLt)
  calc romFreq p hz oct off = 16 * hz * 2 ^ oct.toNat / (511 - off.toNat) := by rw [romFreq, hp]
    _ ≤ 16 * hz * 2 ^ 7 / 256 := Nat.div_le_div (Nat.mul_le_mul_left _ hoct) (by omega) (by decide)
    _ = 8 * hz := by omega

/-- Settles O20: the formula is at most 8 times the clock rate, and a table's entries are 32-bit words. -/
theorem periodTableEntriesAreBounded : Obligations.PeriodTableEntriesAreBounded := by
  refine ⟨fun p hz oct off => ⟨fun hp => ?_, fun entries hp => ?_⟩, fun p hz oct off hhz => ?_,
    fun oct off => romFreq_formula_le rfl 8000000 oct off, rfl⟩
  · rw [romFreq, hp]
  · rw [romFreq, hp]
  · cases hp : p.freqRom with
    | formula =>
      have hle := romFreq_formula_le hp hz oct off
      have hclock := ((clockLegal_iff hz).1 hhz).2
      omega
    | table entries =>
      rw [romFreq, hp]
      exact BitVec.isLt _

/-! ### Iterations of a body -/

section
variable {α β : Type}

/-- A map that turns one body into another where an invariant holds turns the loops into each other. -/
theorem iter_map_of_keeps {P : α → Prop} {f : α → α} {g : β → β} (r : α → β) (hP : ∀ a, P a → P (f a))
    (h : ∀ a, P a → r (f a) = g (r a)) (n : Nat) {a : α} (ha : P a) : r (iter n f a) = iter n g (r a) := by
  induction n generalizing a with
  | zero => rfl
  | succ n ih => rw [iter_succ, ih (hP a ha), h a ha, iter_succ]

/-- A body that runs only under a fixed condition makes a loop that does. -/
theorem iter_ite (c : Prop) [Decidable c] (f : α → α) (n : Nat) (a : α) :
    iter n (fun x => if c then f x else x) a = if c then iter n f a else a := by
  by_cases hc : c
  · simp only [if_pos hc]
  · simp only [if_neg hc, iter_fixed (f := fun x : α => x) rfl n]

/-- A body that settles after two rounds is run as if at most twice. -/
theorem iter_eq_iter_min_two {f : α → α} {a : α} (h : f (f (f a)) = f (f a)) (n : Nat) :
    iter n f a = iter (min n 2) f a := by
  rcases Nat.le_total n 2 with hn | hn
  · rw [min_eq_left hn]
  · obtain ⟨m, rfl⟩ := Nat.exists_eq_add_of_le hn
    rw [min_eq_right hn, iter_add]
    exact iter_fixed h m

end

/-! ### Iterated crossings of one oscillator -/

theorem Level.flip_flip (l : Level) : l.flip.flip = l := by cases l <;> rfl

/-- Only the parity of the flips counts. -/
theorem iter_flip (n : Nat) (l : Level) : iter n Level.flip l = if n % 2 = 0 then l else l.flip := by
  induction n with
  | zero => rfl
  | succ n ih =>
    rw [iter_succ_apply, ih]
    rcases Nat.mod_two_eq_zero_or_one n with h | h
    · rw [if_pos h, if_neg (by omega)]
    · rw [if_neg (by omega), if_pos (by omega), Level.flip_flip]

/-- Applying what waits, any number of times, commutes with setting counter and level. -/
theorem iter_oscApplyIfNew_with (rom : BitVec 3 → Byte → Nat) (n : Nat) (o : Osc) (c : Nat) (l : Level) :
    iter n (oscApplyIfNew rom) { o with counter := c, level := l } =
      { iter n (oscApplyIfNew rom) o with counter := c, level := l } :=
  (iter_map (fun o : Osc => { o with counter := c, level := l })
    (fun o => (oscApplyIfNew_with rom o c l).symm) n o).symm

/-- What `n` crossings do to their oscillator: the waiting values applied `n` times, `n` thresholds taken from the
counter, the level flipped `n` times. -/
theorem iter_oscCrossing (rom : BitVec 3 → Byte → Nat) (th n : Nat) (o : Osc) :
    iter n (fun o => oscApplyIfNew rom (oscFlip th o)) o =
      { iter n (oscApplyIfNew rom) o with
        counter := o.counter - n * th, level := iter n Level.flip o.level } := by
  induction n generalizing o with
  | zero => simp
  | succ n ih =>
    rw [iter_succ, ih, oscFlip, oscApplyIfNew_with, iter_oscApplyIfNew_with, iter_succ, iter_succ,
      Nat.sub_sub, Nat.succ_mul, Nat.add_comm th]

/-! ### Iterated crossings of the device -/

theorem sameDevice_crossing {s t : State} (i : Chan) (h : sameDevice s t) : sameDevice s (t.crossing i) :=
  sameDevice_trans h (crossing_frame i t).1

theorem iter_crossing_osc_self (i : Chan) (n : Nat) (s : State) :
    (iter n (State.crossing i) s).osc.get i =
      iter n (fun o => oscApplyIfNew s.rom (oscFlip s.thresh o)) (s.osc.get i) :=
  iter_map_of_keeps (P := sameDevice s) (fun t : State => t.osc.get i) (fun _ => sameDevice_crossing i)
    (fun t h => by rw [crossing_osc_self, rom_of_sameDevice h, thresh_of_sameDevice h]) n (sameDevice_refl s)

theorem iter_crossing_noise (i : Chan) (n : Nat) (s : State) (j : Gen) :
    (iter n (State.crossing i) s).noise.get j =
      if noiseSource j = i then iter n noiseTrigger (s.noise.get j) else s.noise.get j := by
  rw [← iter_ite]
  exact iter_map (fun t : State => t.noise.get j) (fun t => crossing_noise i t j) n s

theorem iter_crossing_env (i : Chan) (n : Nat) (s : State) (j : Gen) :
    (iter n (State.crossing i) s).env.get j =
      if envSource j = i then iter n (internalClock s.params) (s.env.get j) else s.env.get j := by
  rw [← iter_ite]
  exact iter_map_of_keeps (P := sameDevice s) (fun t : State => t.env.get j) (fun _ => sameDevice_crossing i)
    (fun t h => by rw [crossing_env, params_of_sameDevice h]) n (sameDevice_refl s)

/-! ### An oscillator tick -/

theorem oscTick_of_sync {s : State} {i : Chan} (h : (s.oscAt i).sync = true) : s.oscTick i = s := if_pos h

/-- A tick outside sync adds the increment, then makes one crossing per threshold in the counter. -/
theorem oscTick_eq_iter_crossing {s : State} {i : Chan} (hs : (s.oscAt i).sync = false) (hth : 0 < s.thresh) :
    s.oscTick i = iter (((s.oscAt i).counter + (s.oscAt i).add) / s.thresh) (State.crossing i)
      (s.setOsc i { s.oscAt i with counter := (s.oscAt i).counter + (s.oscAt i).add }) := by
  have hloop := (crossings_eq i
    (s.setOsc i { s.oscAt i with counter := (s.oscAt i).counter + (s.oscAt i).add }) hth).1
  rw [State.setOsc_osc, Six.get_set_self, State.setOsc_thresh] at hloop
  rw [State.oscTick, hs, if_neg Bool.false_ne_true, hloop]

/-- The ticking oscillator itself: what waits is applied as if at most twice, for a third time does nothing. -/
theorem oscTick_osc_self {s : State} {i : Chan} (hs : (s.oscAt i).sync = false) (hth : 0 < s.thresh) {k : Nat}
    (hk : k = ((s.oscAt i).counter + (s.oscAt i).add) / s.thresh) :
    (s.oscTick i).oscAt i =
      { iter (min k 2) (oscApplyIfNew s.rom) (s.oscAt i) with
        counter := ((s.oscAt i).counter + (s.oscAt i).add) % s.thresh
        level := if k % 2 = 0 then (s.oscAt i).level else (s.oscAt i).level.flip } := by
  have hwith := iter_oscApplyIfNew_with s.rom k (s.oscAt i) ((s.oscAt i).counter + (s.oscAt i).add) (s.oscAt i).level
  have hmod := Nat.mod_eq_sub ((s.oscAt i).counter + (s.oscAt i).add) s.thresh
  rw [oscTick_eq_iter_crossing hs hth, ← hk, State.oscAt, iter_crossing_osc_self, State.setOsc_osc, Six.get_set_self,
    State.setOsc_rom, State.setOsc_thresh, iter_oscCrossing, hwith, iter_flip,
    iter_eq_iter_min_two (oscApplyIfNew_thrice s.rom _) k, hmod, ← hk, Nat.mul_comm k]

/-! ### The two operations a crossing names -/

/-- What waits at a boundary, by its two flags (R104). -/
theorem oscApplyIfNew_eq (rom : BitVec 3 → Byte → Nat) (o : Osc) : oscApplyIfNew rom o =
    if o.newData = false then o
    else if o.ignoreOffset = true then
      { o with
        curOct := o.nextOct, octWritten := false, ignoreOffset := false, add := rom o.nextOct o.curOff }
    else
      { o with
        curOct := o.nextOct, octWritten := false, curOff := o.nextOff, newData := false,
        add := rom o.nextOct o.nextOff } := by
  unfold oscApplyIfNew oscApplyPending oscReload
  cases o.newData with
  | false => rfl
  | true => cases o.ignoreOffset <;> rfl

/-- Settles O22: a tick outside sync is an iteration of crossings, read at its oscillator, the others, the wired
noise and envelope generator and the rest of the device. -/
theorem oscillatorTickClosedForm : Obligations.OscillatorTickClosedForm := by
  refine ⟨oscApplyIfNew_eq, fun _ _ => rfl, fun _ _ => oscTick_of_sync, fun s i hs hth => ?_⟩
  have htick := oscTick_eq_iter_crossing hs hth
  obtain ⟨hdevice, hamp⟩ := oscTick_frame i s
  refine ⟨_, rfl, oscTick_osc_self hs hth rfl, fun c => oscTick_osc_ne s, fun j => ?_, fun j => ?_, hamp, hdevice⟩
  · rw [htick]; exact iter_crossing_noise i _ _ j
  · rw [htick]; exact iter_crossing_env i _ _ j

end Sys2Proof.Machine
end

section
/-! PROOFS. The writes to the frequency generators (41_frequency_generator.md R102, R103, R110 to R118) and the
global control write (R105, 42_noise_generator.md R145, 45_device_pipeline.md R233). -/

namespace Sys2Proof.Machine

/-! ### An offset write -/

section
variable {rom : BitVec 3 → Byte → Nat} {o : Osc}

theorem oscSetOffset_of_sync (h : o.sync = true) (v : Byte) :
    oscSetOffset rom v o = { o with nextOff := v, curOff := v, add := rom o.curOct v } := if_pos h

theorem oscSetOffset_of_not_sync (h : o.sync = false) (v : Byte) :
    oscSetOffset rom v o =
      { o with
        nextOff := v
        newData := true
        ignoreOffset := if o.octWritten then true else o.ignoreOffset } := by
  rw [oscSetOffset, h, if_neg Bool.false_ne_true, flagOffset]
  cases o.octWritten
  · simp
  · simp

/-- Of two offset writes with no boundary between them only the second is seen (R102). -/
theorem oscSetOffset_oscSetOffset (rom : BitVec 3 → Byte → Nat) (v w : Byte) (o : Osc) :
    oscSetOffset rom w (oscSetOffset rom v o) = oscSetOffset rom w o := by
  cases h : o.sync with
  | true =>
    rw [oscSetOffset_of_sync (by simpa using h), oscSetOffset_of_sync h, oscSetOffset_of_sync h]
  | false =>
    rw [oscSetOffset_of_not_sync (by simpa using h), oscSetOffset_of_not_sync h, oscSetOffset_of_not_sync h]
    cases o.octWritten <;> rfl

theorem oscSetOctave_of_sync (h : o.sync = true) (v : BitVec 3) :
    oscSetOctave rom v o = { o with nextOct := v, curOct := v, add := rom v o.curOff } := if_pos h

theorem oscSetOctave_of_not_sync (h : o.sync = false) (v : BitVec 3) :
    oscSetOctave rom v o = { o with nextOct := v, newData := true, octWritten := true } := by
  rw [oscSetOctave, h, if_neg Bool.false_ne_true, flagOctave]

end

theorem exec_offsetWrite (i : Chan) (v : Byte) (s : State) :
    exec (offsetWrite i v) s = .next (s.setOffset i v) := by
  fin_cases i <;> rfl

theorem setOffset_oscAt_self (i : Chan) (v : Byte) (s : State) :
    (s.setOffset i v).oscAt i = oscSetOffset s.rom v (s.oscAt i) := Six.get_set_self s.osc i _

theorem setOffset_oscAt_ne (v : Byte) (s : State) {i k : Chan} (h : k ≠ i) :
    (s.setOffset i v).oscAt k = s.oscAt k := Six.get_set_ne s.osc _ h

theorem setOffset_setOffset (i : Chan) (v w : Byte) (s : State) :
    (s.setOffset i v).setOffset i w = s.setOffset i w := by
  simp only [State.setOffset, State.setOsc, State.oscAt, Six.get_set_self, Six.set_set]
  exact congrArg (fun o => { s with osc := s.osc.set i o }) (oscSetOffset_oscSetOffset s.rom v w _)

/-- Settles O12: an offset write replaces one oscillator, and writing it twice is writing it the second time. -/
theorem offsetWriteWaitsOutsideSync : Obligations.OffsetWriteWaitsOutsideSync := by
  intro i v s
  refine ⟨s.setOffset i v, exec_offsetWrite i v s, fun h => ?_, fun h => ?_, fun _ => setOffset_oscAt_ne v s,
    rfl, rfl, rfl, sameDevice_setOsc s i _, fun w => ?_⟩
  · rw [setOffset_oscAt_self, oscSetOffset_of_sync h]
  · rw [setOffset_oscAt_self, oscSetOffset_of_not_sync h]
  · rw [exec_offsetWrite, exec_offsetWrite, setOffset_setOffset]

/-! ### An octave write -/

theorem exec_octaveWrite (k : Fin 3) (u v : BitVec 3) (s : State) :
    exec (octaveWrite k u v) s = .next (s.setOctaves (pairLow k) (pairHigh k) u v) := by
  fin_cases k <;> rfl

theorem pairLow_ne_pairHigh : ∀ k : Fin 3, pairLow k ≠ pairHigh k := by decide

/-- The two octave writes of a pair, by oscillator. -/
theorem setOctaves_oscAt {i j : Chan} (hij : i ≠ j) (u v : BitVec 3) (s : State) (c : Chan) :
    (s.setOctaves i j u v).oscAt c =
      if c = i then oscSetOctave s.rom u (s.oscAt c)
      else if c = j then oscSetOctave s.rom v (s.oscAt c)
      else s.oscAt c := by
  simp only [State.setOctaves, State.setOctave, State.oscAt, State.setOsc_osc, State.setOsc_rom, Six.get_set]
  by_cases hi : c = i
  · subst hi; rw [if_neg hij, if_pos rfl, if_pos rfl]
  · simp only [if_neg hi, if_neg hij.symm]
    by_cases hj : c = j
    · rw [if_pos hj, if_pos hj, hj]
    · rw [if_neg hj, if_neg hj]

/-- Settles O13: each oscillator of the pair takes its own octave write. -/
theorem octaveWriteMarksBothOscillators : Obligations.OctaveWriteMarksBothOscillators := by
  intro k u v s
  have hne := pairLow_ne_pairHigh k
  refine ⟨_, exec_octaveWrite k u v s, fun i x hi => ?_, fun i hlow hhigh => ?_, rfl, rfl, rfl, sameDevice_refl s⟩
  · have hosc : (s.setOctaves (pairLow k) (pairHigh k) u v).oscAt i = oscSetOctave s.rom x (s.oscAt i) := by
      rw [setOctaves_oscAt hne]
      obtain ⟨rfl, rfl⟩ | ⟨rfl, rfl⟩ := hi
      · rw [if_pos rfl]
      · rw [if_neg hne.symm, if_pos rfl]
    exact ⟨fun h => hosc.trans (oscSetOctave_of_sync h x), fun h => hosc.trans (oscSetOctave_of_not_sync h x)⟩
  · rw [setOctaves_oscAt hne, if_neg hlow, if_neg hhigh]

/-! ### The global control write -/

/-- Settles O17: the banks of oscillators, noise generators and amplifiers are mapped, and a part is read in the
mapped bank. -/
theorem globalControlMutesAndSyncs : Obligations.GlobalControlMutesAndSyncs := by
  intro en sy s
  refine ⟨s.globalControl en sy, rfl, rfl, rfl, fun i => Six.get_map _ s.amp i, fun i => ?_,
    fun j => Two.get_map _ s.noise j, rfl, rfl, rfl, rfl, rfl, rfl, rfl, rfl⟩
  cases sy with
  | true => exact Six.get_map _ s.osc i
  | false => exact Six.get_map _ s.osc i

end Sys2Proof.Machine
end

section
/-! PROOFS. The noise generators (42_noise_generator.md): a shift as arithmetic (R141), the trigger (R143), the rate
increment and a tick in closed form (R140, R142), and the mode write (R144, R147). -/

namespace Sys2Proof.Machine

/-! ### A shift and a trigger -/

/-- The bit shifted in is the exclusive or of the taps. The doubled register is even, so setting bit 0 adds it. -/
theorem noiseShift_reg_toNat (n : Noise) :
    (noiseShift n).reg.toNat =
      2 * n.reg.toNat % 2 ^ 32 + (if n.reg.getLsbD 30 = n.reg.getLsbD 2 then 0 else 1) := by
  have hdouble : (n.reg <<< 1).toNat = 2 * (n.reg.toNat % 2 ^ 31) := by
    rw [BitVec.toNat_shiftLeft, Nat.shiftLeft_eq]; omega
  have hbit (b : Bool) : ((BitVec.ofBool b).zeroExtend 32).toNat = b.toNat := by cases b <;> rfl
  have hxor (b c : Bool) : (b != c).toNat = if b = c then 0 else 1 := by cases b <;> cases c <;> rfl
  calc (noiseShift n).reg.toNat
    _ = 2 * (n.reg.toNat % 2 ^ 31) ||| (n.reg.getLsbD 30 != n.reg.getLsbD 2).toNat := by
      rw [noiseShift, BitVec.toNat_or, hdouble, hbit]
    _ = 2 * (n.reg.toNat % 2 ^ 31) + (n.reg.getLsbD 30 != n.reg.getLsbD 2).toNat :=
      (Nat.two_pow_add_eq_or_of_lt (i := 1) (Bool.toNat_lt _) _).symm
    _ = _ := by rw [hxor]; omega

/-- Doubling loses bit 31 only, and at 0x80000000 both taps are 0. -/
theorem noiseShift_reg_eq_zero_iff (n : Noise) :
    (noiseShift n).reg = 0 ↔ n.reg = 0 ∨ n.reg = 0x80000000 := by
  constructor
  · intro h
    have hzero := noiseShift_reg_toNat n
    rw [h] at hzero
    change 0 = _ at hzero
    have hcases : n.reg.toNat = 0 ∨ n.reg.toNat = 0x80000000 := by
      have hlt := n.reg.isLt
      omega
    exact hcases.imp BitVec.eq_of_toNat_eq BitVec.eq_of_toNat_eq
  · rintro (h | h) <;> (rw [noiseShift, h]; rfl)

theorem noiseTrigger_of_mode_three {n : Noise} (hmode : n.mode = 3) (hsync : n.sync = false) :
    noiseTrigger n = noiseShift n := if_pos (by rw [hmode, hsync]; rfl)

theorem noiseTrigger_of_ne_or_sync {n : Noise} (h : n.mode ≠ 3 ∨ n.sync = true) : noiseTrigger n = n := by
  refine if_neg fun hc => ?_
  rw [Bool.and_eq_true, beq_iff_eq, Bool.not_eq_true'] at hc
  obtain ⟨hmode, hsync⟩ := hc
  rcases h with h | h
  · exact h hmode
  · exact Bool.false_ne_true (hsync.symm.trans h)

/-- Settles O24, from the shift as arithmetic and the trigger's two cases. -/
theorem noiseShiftFeedsBackTwoTaps : Obligations.NoiseShiftFeedsBackTwoTaps := by
  refine fun n => ⟨noiseShift_reg_toNat n, rfl, rfl, rfl, noiseShift_reg_eq_zero_iff n, fun h => ?_, fun h => ?_, rfl,
    noiseTrigger_of_mode_three, noiseTrigger_of_ne_or_sync⟩
  · rw [noiseBit, (noiseShift_reg_eq_zero_iff n).2 (.inl h)]; rfl
  · rw [noiseShift, h]; rfl

/-! ### The rate increment and a tick -/

theorem noiseIncrement_formula {p : Params} (hp : p.noiseAdd = .formula) (hz : Nat) {m : BitVec 2} (hm : m ≠ 3) :
    noiseIncrement p hz m = 16 * hz / 2 ^ m.toNat := by
  rw [noiseIncrement, if_neg hm, hp]
  exact Nat.shiftRight_eq_div_pow _ _

/-- A table answers its entry for each of the modes 0 to 2. -/
theorem noiseIncrement_table {p : Params} {add0 add1 add2 : BitVec 32} (hp : p.noiseAdd = .table add0 add1 add2)
    (hz : Nat) :
    noiseIncrement p hz 0 = add0.toNat ∧ noiseIncrement p hz 1 = add1.toNat ∧
      noiseIncrement p hz 2 = add2.toNat := by
  unfold noiseIncrement
  rw [hp]
  exact ⟨rfl, rfl, rfl⟩

/-- The tick of R142: held in mode 3 and under sync, else one shift per threshold that the counter has reached. -/
theorem noiseTick_eq {th : Nat} (hth : 0 < th) (inc : Nat) (n : Noise) :
    noiseTick th inc n =
      if n.sync = true ∨ n.mode = 3 then n
      else { iter ((n.counter + inc) / th) noiseShift n with counter := (n.counter + inc) % th } := by
  simp only [noiseTick, Bool.or_eq_true, beq_iff_eq]
  split
  · rfl
  · rw [noiseLoop_eq hth, iter_noiseShift_with_counter]

theorem noiseTickAt_noiseAt_self (j : Gen) (s : State) :
    (s.noiseTickAt j).noiseAt j =
      noiseTick s.thresh (noiseIncrement s.params s.cfg.clockHz (s.noiseAt j).mode) (s.noiseAt j) :=
  Two.get_set_self s.noise j _

theorem noiseTickAt_noiseAt_ne (s : State) {j k : Gen} (h : k ≠ j) : (s.noiseTickAt j).noiseAt k = s.noiseAt k :=
  Two.get_set_ne s.noise _ h

/-- Settles O25: the increment by its two sources, then the tick of the one generator and the frame. -/
theorem noiseTickClosedForm : Obligations.NoiseTickClosedForm := by
  refine ⟨fun p hz m hm => ⟨fun hp => noiseIncrement_formula hp hz hm, fun add0 add1 add2 hp => ?_⟩,
    ⟨rfl, rfl, rfl⟩, fun s j hth => ?_⟩
  · obtain ⟨h0, h1, h2⟩ := noiseIncrement_table hp hz
    exact ⟨fun h => h ▸ h0, fun h => h ▸ h1, fun h => h ▸ h2⟩
  · obtain ⟨hdevice, hosc, henv, hamp⟩ := noiseTickAt_frame j s
    exact ⟨_, rfl, (noiseTickAt_noiseAt_self j s).trans (noiseTick_eq hth _ _),
      fun _ => noiseTickAt_noiseAt_ne s, hosc, henv, hamp, hdevice⟩

/-! ### The mode write -/

/-- Settles O15: each generator's source is set, and nothing else is written. -/
theorem noiseModeWriteKeepsCounterAndRegister : Obligations.NoiseModeWriteKeepsCounterAndRegister :=
  fun a b s => ⟨s.setSources a b, rfl, rfl, rfl, rfl, rfl, rfl, sameDevice_refl s⟩

end Sys2Proof.Machine
end

section
/-! PROOFS. The envelope generators (43_envelope_generator.md): the clock case by case (R168), the control write
(R162 to R167), and the levels (R170, R171). -/

namespace Sys2Proof.Machine

/-! ### The clock -/

section
variable {p : Params} {e : Env}

theorem envLoadPending_of_ready (hready : e.ready = true) (hpend : e.pendValid = true) :
    envLoadPending e = envLoad e.pendByte e := by
  rw [envLoadPending, hready, hpend]; rfl

theorem envLoadPending_of_not_ready (h : e.pendValid = true → e.ready = false) : envLoadPending e = e := by
  refine if_neg fun hload => ?_
  obtain ⟨hready, hpend⟩ := (Bool.and_eq_true _ _).mp hload
  exact Bool.false_ne_true ((h hpend).symm.trans hready)

theorem envAdvance_of_below (hq : e.pos.toNat + stepSize e.res3 < 16) :
    envAdvance p e = { e with pos := BitVec.ofNat 4 (e.pos.toNat + stepSize e.res3) } := if_neg (by omega)

theorem envAdvance_of_crossing (hq : 16 ≤ e.pos.toNat + stepSize e.res3) :
    envAdvance p e =
      envNextPhase p { e with pos := BitVec.ofNat 4 (e.pos.toNat + stepSize e.res3 - 16) } := if_pos hq

/-- Crossing with a phase left, the generator was in phase 0 of two, and enters phase 1. -/
theorem envAdvance_of_phase_left (hq : 16 ≤ e.pos.toNat + stepSize e.res3)
    (hph : e.phase.val + 1 < phaseCount (romEnv p e.waveform)) :
    envAdvance p e =
      { e with pos := BitVec.ofNat 4 (e.pos.toNat + stepSize e.res3 - 16), phase := 1 } := by
  have hcount : phaseCount (romEnv p e.waveform) ≤ 2 := by unfold phaseCount; split <;> omega
  have hzero : e.phase = 0 := Fin.ext (by omega)
  rw [envAdvance_of_crossing hq, envNextPhase, if_neg (Nat.not_le_of_lt hph), hzero]; rfl

/-- Crossing with no phase left, the cycle ends. -/
theorem envAdvance_of_cycle_end (hended : e.ended = false) (hq : 16 ≤ e.pos.toNat + stepSize e.res3)
    (hph : phaseCount (romEnv p e.waveform) ≤ e.phase.val + 1) :
    envAdvance p e =
      { e with
        pos := BitVec.ofNat 4 (e.pos.toNat + stepSize e.res3 - 16)
        phase := 0
        ready := true
        ended := !(romEnv p e.waveform).loop } := by
  rw [envAdvance_of_crossing hq, envNextPhase, if_pos hph, flagCycleEnd, hended]; rfl

/-- Advancing never takes `ready` back. -/
theorem envAdvance_ready_of_ready (p : Params) (hready : e.ready = true) : (envAdvance p e).ready = true := by
  unfold envAdvance envNextPhase
  dsimp only
  split
  · split
    · rfl
    · exact hready
  · exact hready

/-- A load writes everything an advance does, so of the two only the load is seen. -/
theorem envLoad_envAdvance (p : Params) (b : Byte) (e : Env) : envLoad b (envAdvance p e) = envLoad b e := by
  obtain ⟨hen, -, -, -, -, -, hbyte⟩ := envAdvance_keeps p e
  rw [envLoad, envLoad, hen, hbyte]

/-- When the advance leaves the generator ready, a buffered byte is loaded. -/
theorem envClock_of_load (hen : e.enabled = true) (hended : e.ended = false)
    (hready : (envAdvance p e).ready = true) (hpend : e.pendValid = true) :
    envClock p e = envLoad e.pendByte e := by
  obtain ⟨-, -, -, -, -, hvalid, hbyte⟩ := envAdvance_keeps p e
  rw [envClock_of_running p e hen hended, envLoadPending_of_ready hready (hvalid.trans hpend), hbyte,
    envLoad_envAdvance]

/-- When the advance leaves the generator not ready, or no byte is buffered, a clock is the advance. -/
theorem envClock_of_no_load (hen : e.enabled = true) (hended : e.ended = false)
    (h : e.pendValid = true → (envAdvance p e).ready = false) : envClock p e = envAdvance p e := by
  obtain ⟨-, -, -, -, -, hvalid, -⟩ := envAdvance_keeps p e
  rw [envClock_of_running p e hen hended, envLoadPending_of_not_ready fun hpend => h (hvalid.symm.trans hpend)]

end

/-- Settles O26: a running generator's clock is the advance, unless that leaves it ready with a byte buffered, when
it is the load. -/
theorem envelopeClockCases : Obligations.EnvelopeClockCases := by
  intro p e
  refine ⟨envClock_of_stopped p e, fun hen hended hready hpend => ?_, fun hen hended hidle =>
    ⟨fun hbelow => ?_, fun hcross => ⟨fun hleft => ?_, fun hlast hnone => ?_, fun hlast hpend => ?_⟩⟩⟩
  · exact envClock_of_load hen hended (envAdvance_ready_of_ready p hready) hpend
  · have hadv := envAdvance_of_below (p := p) hbelow
    rw [envClock_of_no_load hen hended (by rw [hadv]; exact hidle), hadv]
  · have hadv := envAdvance_of_phase_left hcross hleft
    rw [envClock_of_no_load hen hended (by rw [hadv]; exact hidle), hadv]
  · rw [envClock_of_no_load hen hended (by simp [hnone]), envAdvance_of_cycle_end hended hcross hlast]
  · have hready : (envAdvance p e).ready = true := by rw [envAdvance_of_cycle_end hended hcross hlast]
    exact envClock_of_load hen hended hready hpend

/-! ### The control write -/

theorem exec_envWrite (j : Gen) (b : Byte) (s : State) : exec (envWrite j b) s = .next (s.setControl j b) := by
  fin_cases j <;> rfl

theorem setControl_envAt_self (j : Gen) (b : Byte) (s : State) :
    (s.setControl j b).envAt j = envSetControl b (s.envAt j) := Two.get_set_self s.env j _

theorem setControl_envAt_ne (b : Byte) (s : State) {j k : Gen} (h : k ≠ j) :
    (s.setControl j b).envAt k = s.envAt k := Two.get_set_ne s.env _ h

section
variable {b : Byte} {e : Env}

theorem envSetControl_of_disable (h : ctrlEnable b = false) :
    envSetControl b e = envDisable b { e with res3 := ctrlRes3 b } := by
  rw [envSetControl, h]; rfl

theorem envSetControl_of_enable (h : ctrlEnable b = true) (hfree : e.enabled = false ∨ e.ready = true) :
    envSetControl b e = envEnable b { e with res3 := ctrlRes3 b } := by
  have hfree' : (!e.enabled || e.ready) = true := by simpa using hfree
  rw [envSetControl, h, if_neg (by decide)]
  exact if_pos hfree'

theorem envSetControl_of_buffer (h : ctrlEnable b = true) (hen : e.enabled = true) (hready : e.ready = false) :
    envSetControl b e = envBuffer b { e with res3 := ctrlRes3 b } := by
  rw [envSetControl, h, hen, hready]; rfl

end

/-- Settles O16: the write replaces one generator, by the path that the byte's bit 7 and the generator's flags
choose. -/
theorem envControlWriteTakesOneOfThreePaths : Obligations.EnvControlWriteTakesOneOfThreePaths := by
  intro j b s
  refine ⟨s.setControl j b, exec_envWrite j b s, fun h => ?_, fun h hfree => ?_, fun h hen hready => ?_,
    fun _ => setControl_envAt_ne b s, rfl, rfl, rfl, sameDevice_setEnv s j _⟩
  · rw [setControl_envAt_self, envSetControl_of_disable h]; rfl
  · rw [setControl_envAt_self, envSetControl_of_enable h hfree]; rfl
  · rw [setControl_envAt_self, envSetControl_of_buffer h hen hready]; rfl

/-! ### The levels -/

section
variable {p : Params} {e : Env}

theorem env_levels_of_stopped (p : Params) (h : e.enabled = false ∨ e.ended = true) :
    envLeft p e = 0 ∧ envRight p e = 0 := by
  have hstop : (!e.enabled || e.ended) = true := by simpa using h
  exact ⟨if_pos hstop, if_pos hstop⟩

theorem envLeft_of_running (p : Params) (hen : e.enabled = true) (hended : e.ended = false) :
    envLeft p e = contourLevel (romEnv p e.waveform) e.res3 e.phase e.pos := by
  rw [envLeft, hen, hended]; rfl

theorem envRight_of_running (p : Params) (hen : e.enabled = true) (hended : e.ended = false) :
    envRight p e = if e.invertRight then maxLevel e.res3 - envLeft p e else envLeft p e := by
  rw [envRight, hen, hended]; rfl

end

theorem contourLevel_le_fifteen (c : EnvEntry) (res3 : Bool) (ph : Fin 2) (q : BitVec 4) :
    contourLevel c res3 ph q ≤ 15 := Nat.le_of_lt_succ (BitVec.isLt _)

/-- What holds of a list's elements and of the default holds of the entry at any index. -/
theorem getD_of_forall_mem {α : Type} {P : α → Prop} {l : List α} {d : α} (h : ∀ x ∈ l, P x) (hd : P d)
    (n : Nat) : P (l.getD n d) := by
  rcases Nat.lt_or_ge n l.length with hn | hn
  · exact List.getD_eq_getElem l d hn ▸ h _ (List.getElem_mem hn)
  · exact (List.getD_eq_default l d hn).symm ▸ hd

/-- A legal contour's 3-bit levels are at most 14; a level past a list's end is 0. -/
theorem contourLevel_le_fourteen {c : EnvEntry} (hc : entryLegal c = true) (ph : Fin 2) (q : BitVec 4) :
    contourLevel c true ph q ≤ 14 := by
  have hlists : ∀ ls ∈ c.lvl3, ∀ l ∈ ls, l.toNat ≤ 14 := by simpa [entryLegal] using hc
  have hlist : ∀ l ∈ c.lvl3.getD ph.val [], l.toNat ≤ 14 :=
    getD_of_forall_mem (P := fun ls : List (BitVec 4) => ∀ l ∈ ls, l.toNat ≤ 14) hlists (List.forall_mem_nil _) ph.val
  exact getD_of_forall_mem (P := fun l : BitVec 4 => l.toNat ≤ 14) hlist (Nat.zero_le _) q.toNat

theorem entryLegal_romEnv {p : Params} (hp : paramsLegal p = true) (w : BitVec 3) :
    entryLegal (romEnv p w) = true := by
  simp only [paramsLegal, Bool.and_eq_true, and_assoc] at hp
  obtain ⟨-, -, -, h0, h1, h2, h3, h4, h5, h6, h7⟩ := hp
  unfold romEnv
  split <;> assumption

/-- A level of a legal ROM is within its resolution's maximum (R161). -/
theorem contourLevel_le_maxLevel {p : Params} (hp : paramsLegal p = true) (w : BitVec 3) (res3 : Bool) (ph : Fin 2)
    (q : BitVec 4) : contourLevel (romEnv p w) res3 ph q ≤ maxLevel res3 := by
  cases res3 with
  | false => exact contourLevel_le_fifteen _ _ ph q
  | true => exact contourLevel_le_fourteen (entryLegal_romEnv hp w) ph q

/-- Settles O28: a running generator's left level is the contour's entry, so within the maximum from which an
inverted right level is taken. -/
theorem envelopeLevelsMirrorOrInvert : Obligations.EnvelopeLevelsMirrorOrInvert := by
  intro p e
  refine ⟨env_levels_of_stopped p, fun hen hended => ?_⟩
  have hleft := envLeft_of_running p hen hended
  have hright := envRight_of_running p hen hended
  refine ⟨hleft, hleft ▸ contourLevel_le_fifteen _ _ _ _, fun hinv => ?_, fun hinv hp => ?_⟩
  · rw [hright, hinv]; rfl
  · have hmax : envLeft p e ≤ maxLevel e.res3 := hleft ▸ contourLevel_le_maxLevel hp _ _ _ _
    calc envLeft p e + envRight p e = envLeft p e + (maxLevel e.res3 - envLeft p e) := by rw [hright, hinv]; rfl
      _ = maxLevel e.res3 := Nat.add_sub_of_le hmax

end Sys2Proof.Machine
end

section
/-! PROOFS. The default contours and the default amplitude map (43_envelope_generator.md R160, 44_amplifier_mixer.md
R205). -/

namespace Sys2Proof.Machine

theorem envAmp_default (v : BitVec 4) (level : Nat) (res3 : Bool) :
    envAmp defaultParams v level res3 = 2 * (v.toNat / 2) * level / 15 := by
  rw [← Nat.shiftRight_one]; rfl

/-- A half volume is at most 7 and a level at most 15, so the product is at most 14 fifteenths of 15. -/
theorem envAmp_default_le (v : BitVec 4) {level : Nat} (hlevel : level ≤ 15) (res3 : Bool) :
    envAmp defaultParams v level res3 ≤ 14 := by
  have hvol : 2 * (v.toNat / 2) ≤ 14 := by omega
  calc envAmp defaultParams v level res3 = 2 * (v.toNat / 2) * level / 15 := envAmp_default v level res3
    _ ≤ 14 * 15 / 15 := Nat.div_le_div_right (Nat.mul_le_mul hvol hlevel)

/-- Clearing bit 0 rounds a level down to an even one. -/
theorem level_and_fourteen : ∀ l : BitVec 4, (l &&& 0xE).toNat = l.toNat / 2 * 2 := by decide

/-- Where a contour's 3-bit lists are its 4-bit ones with bit 0 cleared, so is every level, past a list's end
too. -/
theorem contourLevel_three_bit {c : EnvEntry} (hc : c.lvl3 = c.lvl4.map to3Bit) (ph : Fin 2) (q : BitVec 4) :
    contourLevel c true ph q = contourLevel c false ph q / 2 * 2 := by
  have hrow : c.lvl3.getD ph.val [] = to3Bit (c.lvl4.getD ph.val []) := hc ▸ List.getD_map _ [] to3Bit
  calc contourLevel c true ph q = ((to3Bit (c.lvl4.getD ph.val [])).getD q.toNat (0 &&& 0xE)).toNat :=
        congrArg (fun r : List (BitVec 4) => (r.getD q.toNat 0).toNat) hrow
    _ = ((c.lvl4.getD ph.val []).getD q.toNat 0 &&& 0xE).toNat :=
        congrArg BitVec.toNat (List.getD_map _ _ fun l : BitVec 4 => l &&& 0xE)
    _ = contourLevel c false ph q / 2 * 2 := level_and_fourteen _

theorem default_lvl3 : ∀ w : BitVec 3,
    (romEnv defaultParams w).lvl3 = (romEnv defaultParams w).lvl4.map to3Bit := by decide

theorem default_phases_and_loop : ∀ w : BitVec 3,
    phaseCount (romEnv defaultParams w) = (if w = 4 ∨ w = 5 then 2 else 1) ∧
      ((romEnv defaultParams w).loop = true ↔ w = 1 ∨ w = 3 ∨ w = 5 ∨ w = 7) := by decide

/-! The four contours by position. -/

theorem contourZero_getD : ∀ q : BitVec 4, (contourZero.getD q.toNat 0).toNat = 0 := by decide

theorem contourMax_getD : ∀ q : BitVec 4, (contourMax.getD q.toNat 0).toNat = 15 := by decide

theorem contourDecay_getD : ∀ q : BitVec 4, (contourDecay.getD q.toNat 0).toNat = 15 - q.toNat := by decide

theorem contourAttack_getD : ∀ q : BitVec 4, (contourAttack.getD q.toNat 0).toNat = q.toNat := by decide

/-- Settles O29: the amplitude map by arithmetic, the 3-bit levels for any contour built from its 4-bit ones, and
each waveform by the contours it is made of. -/
theorem defaultEnvelopeTables : Obligations.DefaultEnvelopeTables := by
  refine ⟨fun v e res3 he => ⟨envAmp_default v e res3, envAmp_default_le v he res3⟩, default_phases_and_loop,
    fun q res3 => ⟨fun w ph => contourLevel_three_bit (default_lvl3 w) ph q, ?_, contourMax_getD q,
      contourDecay_getD q, contourDecay_getD q, contourAttack_getD q, contourDecay_getD q, contourAttack_getD q,
      contourDecay_getD q, contourAttack_getD q, contourAttack_getD q⟩⟩
  have hzero : contourLevel (romEnv defaultParams 0) false 0 q = 0 := contourZero_getD q
  cases res3 with
  | false => exact hzero
  | true => rw [contourLevel_three_bit (default_lvl3 0), hzero]

end Sys2Proof.Machine
end

section
/-! PROOFS. The amplifiers and the mixer (44_amplifier_mixer.md): the volume and mix writes (R207, R208, R210 to
R217), the intermediate and an amplifier's tick (R200 to R202), and its output path by path (R203 to R206). -/

namespace Sys2Proof.Machine

/-! ### The writes -/

theorem exec_ampWrite (i : Chan) (l r : BitVec 4) (s : State) :
    exec (ampWrite i l r) s = .next (s.setAmpLevel i l r) := by
  fin_cases i <;> rfl

theorem setAmpLevel_ampAt_self (i : Chan) (l r : BitVec 4) (s : State) :
    (s.setAmpLevel i l r).ampAt i = { s.ampAt i with volL := l, volR := r } := Six.get_set_self s.amp i _

theorem setAmpLevel_ampAt_ne (l r : BitVec 4) (s : State) {i k : Chan} (h : k ≠ i) :
    (s.setAmpLevel i l r).ampAt k = s.ampAt k := Six.get_set_ne s.amp _ h

/-- Settles O11: the write replaces one amplifier. -/
theorem ampWriteSetsTheTwoVolumes : Obligations.AmpWriteSetsTheTwoVolumes :=
  fun i l r s => ⟨s.setAmpLevel i l r, exec_ampWrite i l r s, setAmpLevel_ampAt_self i l r s,
    fun _ => setAmpLevel_ampAt_ne l r s, rfl, rfl, rfl, sameDevice_setAmp s i _⟩

theorem setToneMixers_ampAt (m : BitVec 6) (s : State) (i : Chan) :
    (s.setToneMixers m).ampAt i = { s.ampAt i with toneEn := m.getLsbD i.val } := Six.get_ofFn _ i

theorem setNoiseMixers_ampAt (m : BitVec 6) (s : State) (i : Chan) :
    (s.setNoiseMixers m).ampAt i = { s.ampAt i with noiseEn := m.getLsbD i.val } := Six.get_ofFn _ i

/-- Settles O14: each write builds the bank of amplifiers again, one mix bit apart from the old one. -/
theorem mixerWritesSetOneBitOfEveryChannel : Obligations.MixerWritesSetOneBitOfEveryChannel :=
  fun m s => ⟨⟨s.setToneMixers m, rfl, setToneMixers_ampAt m s, rfl, rfl, rfl, sameDevice_refl s⟩,
    ⟨s.setNoiseMixers m, rfl, setNoiseMixers_ampAt m s, rfl, rfl, rfl, sameDevice_refl s⟩⟩

/-! ### The intermediate and a tick -/

/-- Settles O30: by the two levels and the two noise bits. -/
theorem intermediateFollowsTheTruthTable : Obligations.IntermediateFollowsTheTruthTable := by
  intro t n
  cases t with
  | low => cases n <;> decide
  | high => cases n <;> decide

theorem ampTick_ampAt_ne (s : State) {i k : Chan} (h : k ≠ i) : (s.ampTick i).ampAt k = s.ampAt k := by
  rw [State.ampAt, ampTick_amp, if_neg h]

/-- Settles O31: the tick is its oscillator's tick, then a write of one intermediate. -/
theorem amplifierTickReadsNoiseAfterItsOscillator : Obligations.AmplifierTickReadsNoiseAfterItsOscillator := by
  intro s i
  refine ⟨?_, fun _ => ampTick_ampAt_ne s, rfl, rfl, rfl, ampTick_frame i s⟩
  rw [State.ampAt, ampTick_amp, if_pos rfl]
  rfl

/-! ### The output -/

theorem envOf_eq_some_iff : ∀ (i : Chan) (j : Gen), envOf i = some j ↔ (i = 2 ∧ j = 0) ∨ (i = 5 ∧ j = 1) := by
  decide

theorem ampAmplitudes_of_active (p : Params) (a : Amp) {e : Env} (h : e.enabled = true) :
    ampAmplitudes p a (some e) = (envAmp p a.volL (envLeft p e) e.res3, envAmp p a.volR (envRight p e) e.res3) :=
  if_pos h

theorem ampAmplitudes_of_inactive (p : Params) (a : Amp) {g : Option Env} (h : ∀ e, g = some e → e.enabled = false) :
    ampAmplitudes p a g = (a.volL.toNat, a.volR.toNat) := by
  cases g with
  | none => rfl
  | some e => exact if_neg (Bool.eq_false_iff.1 (h e rfl))

/-- Outside mute and sync an amplifier's output scales its two amplitudes by the intermediate. -/
theorem ampOut_of_sounding {s : State} {i : Chan} (hmute : (s.ampAt i).mute = false)
    (hsync : (s.ampAt i).sync = false) {vL vR : Nat}
    (hamp : ampAmplitudes s.params (s.ampAt i) ((envOf i).map s.envAt) = (vL, vR)) :
    s.ampOut i = (vL * (s.ampAt i).inter.val, vR * (s.ampAt i).inter.val) := by
  rw [State.ampOut, hmute, hsync, hamp]
  rfl

/-- Settles O32: what is left of an output outside mute and sync is the choice of the amplitudes, by the envelope
generator attached to the channel. -/
theorem amplifierOutput : Obligations.AmplifierOutput := by
  intro s i
  refine ⟨ampOut_of_silent i s, fun hmute hsync => ⟨fun j hj hen => ?_, fun h2 h5 => ?_⟩, ampOut_le i s⟩
  · refine ampOut_of_sounding hmute hsync ?_
    rw [(envOf_eq_some_iff i j).2 hj]
    exact ampAmplitudes_of_active _ _ hen
  · refine ampOut_of_sounding hmute hsync (ampAmplitudes_of_inactive _ _ fun e he => ?_)
    obtain ⟨j, hj, rfl⟩ := Option.map_eq_some_iff.1 he
    obtain ⟨rfl, rfl⟩ | ⟨rfl, rfl⟩ := (envOf_eq_some_iff i j).1 hj
    · exact h2 rfl
    · exact h5 rfl

end Sys2Proof.Machine
end

section
/-! PROOFS. A SAMPLE while every amplifier is muted or synced: its sums are zero, so its frame is the highpass
filter's memory alone (44_amplifier_mixer.md R204, 45_device_pipeline.md R243, 70_reset_and_hazards.md R302). -/

namespace Sys2Proof.Machine

/-- Every amplifier is muted or synced. -/
def State.silent (s : State) : Prop := ∀ k : Chan, (s.amp.get k).mute = true ∨ (s.amp.get k).sync = true

theorem silent_of_copyInv {s : State} (h : s.copyInv) (hoff : s.enable = false ∨ s.gsync = true) : s.silent := by
  intro k
  obtain ⟨hmute, hsync, -⟩ := h.1 k
  exact hoff.imp (fun hen => by rw [hmute, hen]; rfl) hsync.trans

theorem silent_ampTick (i : Chan) {s : State} (h : s.silent) : (s.ampTick i).silent := by
  intro k
  rw [ampTick_amp]
  exact h k

/-- A SAMPLE under way whose sums are zero, on a silent device. -/
def Mix.silent (m : Mix) : Prop := m.st.silent ∧ m.sumL = 0 ∧ m.sumR = 0

theorem silent_mixChannel (i : Chan) (m : Mix) (h : m.silent) : (mixChannel i m).silent := by
  obtain ⟨hst, hL, hR⟩ := h
  have htick := silent_ampTick i hst
  have hout : (m.st.ampTick i).ampOut i = (0, 0) := ampOut_of_silent i _ (htick i)
  exact ⟨htick, by simp [mixChannel, hout, hL], by simp [mixChannel, hout, hR]⟩

theorem silent_subTicks {s : State} (h : s.silent) : s.subTicks.silent :=
  subTicks_keeps (P := Mix.silent) (fun _ _ hm => hm) silent_mixChannel ⟨h, rfl, rfl⟩

theorem preFilter_zero (p : Params) (c : Cfg) : preFilter p c 0 = 0 := by simp [preFilter]

theorem hpf_zero_of_enabled {p : Params} (h : p.hpfEnable = true) (z : Int) : (hpf p 0 z).1 = -(z / 65536) := by
  rw [hpf, if_pos h]
  exact zero_sub _

theorem hpf_of_disabled {p : Params} (h : p.hpfEnable = false) (x : Nat) (z : Int) : hpf p x z = ((x : Int), z) := by
  rw [hpf, h]
  rfl

theorem clamp16_zero : clamp16 0 = 0 := by decide

/-- Settles O36: silence kept over the sub-ticks leaves the filter its accumulators, or nothing when it is off. -/
theorem mutedSampleIsTheFilterDecay : Obligations.MutedSampleIsTheFilterDecay := by
  intro s t hcopies hoff hexec
  obtain ⟨-, hL, hR⟩ := silent_subTicks (silent_of_copyInv hcopies hoff)
  have ht : s.sampleOnce = t := Host.Outcome.next.inj hexec
  obtain ⟨-, -, -, -, -, -, -, -, -, -, -, -, hout⟩ := sampleOnce_spec s
  rw [hL, hR, preFilter_zero, ht] at hout
  refine ⟨hL, hR, fun hon => ?_, fun hbypass => ?_⟩
  · rw [hout, hpf_zero_of_enabled hon, hpf_zero_of_enabled hon]
  · rw [hout, hpf_of_disabled hbypass, hpf_of_disabled hbypass]
    exact congrArg (fun x => s.out ++ [Frame.mk x x]) clamp16_zero

end Sys2Proof.Machine
end

section
/-! PROOFS. The sample pipeline: the sums of a SAMPLE, averaging and gain, the highpass filter and its accumulators,
and what a SAMPLE emits and keeps (45_device_pipeline.md R240 to R244). -/

namespace Sys2Proof.Machine

/-! ### The sums of a SAMPLE -/

/-- n sub-ticks add at most 180 each to both sums. -/
theorem iter_subTick_sums_le (n : Nat) (m : Mix) :
    (iter n subTick m).sumL ≤ m.sumL + 180 * n ∧ (iter n subTick m).sumR ≤ m.sumR + 180 * n := by
  induction n with
  | zero => exact ⟨le_rfl, le_rfl⟩
  | succ n ih =>
    have hstep := subTick_sums_le (iter n subTick m)
    rw [iter_succ_apply]
    omega

theorem subTicks_sums_le (s : State) :
    s.subTicks.sumL ≤ 180 * 2 ^ s.cfg.oversample ∧ s.subTicks.sumR ≤ 180 * 2 ^ s.cfg.oversample := by
  simpa only [Nat.zero_add, State.subTicks] using
    iter_subTick_sums_le (2 ^ s.cfg.oversample) { st := s, sumL := 0, sumR := 0 }

/-- The average of a sum of at most 180 a sub-tick is at most 180. -/
theorem average_le {sum ov : Nat} (h : sum ≤ 180 * 2 ^ ov) : sum / 2 ^ ov ≤ 180 :=
  Nat.div_le_of_le_mul (h.trans_eq (Nat.mul_comm _ _))

/-- Settles O34: a SAMPLE has 2^OVERSAMPLE sub-ticks. -/
theorem sampleAveragesAreAtMost180 : Obligations.SampleAveragesAreAtMost180 := by
  intro s
  obtain ⟨hL, hR⟩ := subTicks_sums_le s
  exact ⟨hL, hR, average_le hL, average_le hR⟩

/-! ### Averaging and gain -/

theorem preFilter_eq (p : Params) (c : Cfg) (sum : Nat) : preFilter p c sum = sum / 2 ^ c.oversample * p.gain := by
  rw [preFilter, Nat.shiftRight_eq_div_pow]

/-- A gained average is at most 180 times the gain. -/
theorem preFilter_le (p : Params) {c : Cfg} {sum : Nat} (h : sum ≤ 180 * 2 ^ c.oversample) :
    preFilter p c sum ≤ 180 * p.gain := by
  rw [preFilter_eq]
  exact Nat.mul_le_mul_right _ (average_le h)

/-! ### The highpass filter -/

theorem hpf_of_enabled {p : Params} (h : p.hpfEnable = true) (x : Nat) (z : Int) :
    hpf p x z = ((x : Int) - z / 65536, ((p.hpfA : Int) * x * 65536 + p.hpfB * z) / 65536) := by
  rw [hpf, if_pos h]
  rfl

/-- A filter's new accumulator is its old one, or the floor of a weighted sum of input and old accumulator. -/
theorem hpf_acc_cases (p : Params) (x : Nat) (z : Int) :
    (hpf p x z).2 = z ∨ (hpf p x z).2 = ((p.hpfA : Int) * x * 65536 + p.hpfB * z) / 65536 := by
  cases h : p.hpfEnable with
  | false => exact .inl (by rw [hpf_of_disabled h])
  | true => exact .inr (by rw [hpf_of_enabled h])

section
variable {p : Params} {x : Nat} {z : Int}

theorem hpf_acc_nonneg (hz : 0 ≤ z) : 0 ≤ (hpf p x z).2 := by
  rcases hpf_acc_cases p x z with e | e <;> rw [e]
  · exact hz
  · positivity

/-- The fixed point is kept: with `d = 2^16 - HPF_B`, a bound on `x` and on `z * d` bounds the weighted sum times
`d` by `2^16` times the bound on `z * d`. -/
theorem accBounded_hpf (hB : p.hpfB ≤ 2 ^ 16) (hx : x ≤ 180 * p.gain) (hz : accBounded p z) :
    accBounded p (hpf p x z).2 := by
  obtain ⟨h0, hle⟩ := hz
  refine ⟨hpf_acc_nonneg h0, ?_⟩
  rcases hpf_acc_cases p x z with e | e <;> rw [e]
  · exact hle
  · have hd : (0 : Int) ≤ 65536 - p.hpfB := by omega
    have hx' : (x : Int) ≤ 180 * p.gain := by exact_mod_cast hx
    set z' := ((p.hpfA : Int) * x * 65536 + p.hpfB * z) / 65536
    have hfloor : z' * 65536 ≤ (p.hpfA : Int) * x * 65536 + p.hpfB * z := Int.ediv_mul_le _ (by decide)
    refine le_of_mul_le_mul_right ?_ (by decide : (0 : Int) < 65536)
    calc z' * (65536 - p.hpfB) * 65536 = z' * 65536 * (65536 - p.hpfB) := by ring
      _ ≤ ((p.hpfA : Int) * x * 65536 + p.hpfB * z) * (65536 - p.hpfB) := by gcongr
      _ = p.hpfA * x * 65536 * (65536 - p.hpfB) + p.hpfB * (z * (65536 - p.hpfB)) := by ring
      _ ≤ p.hpfA * (180 * p.gain) * 65536 * (65536 - p.hpfB) + p.hpfB * (180 * p.gain * p.hpfA * 65536) := by
        gcongr
      _ = 180 * p.gain * p.hpfA * 65536 * 65536 := by ring

/-- With weights that sum to at most 2^16 the range is kept, for the weighted sum is within it. -/
theorem accInRange_hpf (hAB : p.hpfA + p.hpfB ≤ 2 ^ 16) (hx : x ≤ 180 * p.gain) (hz : accInRange p z) :
    accInRange p (hpf p x z).2 := by
  obtain ⟨h0, hle⟩ := hz
  refine ⟨hpf_acc_nonneg h0, ?_⟩
  rcases hpf_acc_cases p x z with e | e <;> rw [e]
  · exact hle
  · have hAB' : (p.hpfA : Int) + p.hpfB ≤ 65536 := by exact_mod_cast hAB
    have hx' : (x : Int) ≤ 180 * p.gain := by exact_mod_cast hx
    refine Int.ediv_le_of_le_mul (by decide) ?_
    calc (p.hpfA : Int) * x * 65536 + p.hpfB * z
        ≤ p.hpfA * (180 * p.gain) * 65536 + p.hpfB * (180 * p.gain * 65536) := by gcongr
      _ = (p.hpfA + p.hpfB) * (180 * p.gain * 65536) := by ring
      _ ≤ 65536 * (180 * p.gain * 65536) := by gcongr
      _ = 180 * p.gain * 65536 * 65536 := by ring

/-- A bounded accumulator is within signed 64 bits: its bound is at most 180 * 2^48, and the factor
`2^16 - HPF_B` at least 1. -/
theorem lt_of_accBounded (hz : accBounded p z) (hgain : p.gain ≤ 2 ^ 16) (hA : p.hpfA ≤ 2 ^ 16)
    (hB : p.hpfB < 2 ^ 16) : z < 2 ^ 63 := by
  obtain ⟨h0, hle⟩ := hz
  have hd : (1 : Int) ≤ 65536 - p.hpfB := by omega
  have hprod : p.gain * p.hpfA ≤ 2 ^ 16 * 2 ^ 16 := Nat.mul_le_mul hgain hA
  calc z ≤ z * (65536 - p.hpfB) := le_mul_of_one_le_right h0 hd
    _ ≤ 180 * p.gain * p.hpfA * 65536 := hle
    _ = 180 * ((p.gain * p.hpfA : Nat) : Int) * 65536 := by push_cast; ring
    _ < 2 ^ 63 := by omega

end

/-! ### The accumulators over a step -/

/-- Both highpass accumulators have a property that may speak of the parameters. -/
def State.bothAccumulators (Q : Params → Int → Prop) (s : State) : Prop := Q s.params s.zL ∧ Q s.params s.zR

section
variable {Q : Params → Int → Prop} (hQ : ∀ p x z, x ≤ 180 * p.gain → Q p z → Q p (hpf p x z).2)
include hQ

/-- The averages of a SAMPLE are at most 180, so both accumulators take a filter step with an input in range. -/
theorem bothAccumulators_sampleOnce (s : State) (h : s.bothAccumulators Q) : s.sampleOnce.bothAccumulators Q := by
  obtain ⟨-, -, -, -, -, -, -, -, hparams, -, hzL, hzR, -⟩ := sampleOnce_spec s
  obtain ⟨hL, hR⟩ := subTicks_sums_le s
  rw [State.bothAccumulators, hparams, hzL, hzR]
  exact ⟨hQ _ _ _ (preFilter_le _ hL) h.1, hQ _ _ _ (preFilter_le _ hR) h.2⟩

/-- Only a SAMPLE writes the accumulators: what a filter step keeps of one holds of both after every step. -/
theorem bothAccumulators_step {s t : State} (e : step s = .next t) (h : s.bothAccumulators Q) :
    t.bothAccumulators Q := by
  rcases step_cases e with ⟨-, rfl⟩ | ⟨_, _, _, -, -, e⟩
  · exact h
  · refine exec_keeps (P := State.bothAccumulators Q) (fun reg u hu => ?_) (fun a d u hu => ?_)
      (bothAccumulators_sampleOnce hQ) (fun _ _ _ => id) (fun _ _ _ => id) (fun _ _ _ => id) e h
    · obtain ⟨-, -, -, -, -, -, -, hzL, hzR, -, hparams, -⟩ := addressWrite_spec reg u
      rwa [State.bothAccumulators, hparams, hzL, hzR]
    · obtain ⟨-, hzL, hzR, -, hparams, -⟩ := regWrite_frame a d u
      rwa [State.bothAccumulators, hparams, hzL, hzR]

end

/-- Settles O59: each range, with what it needs of the coefficients, is kept by a filter step. -/
theorem filterInvariantIsKept : Obligations.FilterInvariantIsKept := by
  refine ⟨fun s t ⟨hB, hL, hR⟩ e => ?_, fun s ⟨_, hL, hR⟩ hgain hA hB => ?_, fun s t ⟨hAB, hL, hR⟩ e => ?_⟩
  · obtain ⟨⟨hB', hL'⟩, -, hR'⟩ := bothAccumulators_step (Q := fun p z => p.hpfB ≤ 2 ^ 16 ∧ accBounded p z)
      (fun _ _ _ hx hz => ⟨hz.1, accBounded_hpf hz.1 hx hz.2⟩) e ⟨⟨hB, hL⟩, hB, hR⟩
    exact ⟨hB', hL', hR'⟩
  · exact ⟨lt_of_accBounded hL hgain hA hB, lt_of_accBounded hR hgain hA hB⟩
  · obtain ⟨⟨hAB', hL'⟩, -, hR'⟩ := bothAccumulators_step
      (Q := fun p z => p.hpfA + p.hpfB ≤ 2 ^ 16 ∧ accInRange p z)
      (fun _ _ _ hx hz => ⟨hz.1, accInRange_hpf hz.1 hx hz.2⟩) e ⟨⟨hAB, hL⟩, hAB, hR⟩
    exact ⟨hAB', hL', hR'⟩

/-! ### Conversion -/

/-- A value in the range of a sample is converted to itself. -/
theorem clamp16_toInt {v : Int} (hlo : -32768 ≤ v) (hhi : v ≤ 32767) : (clamp16 v).toInt = v := by
  rw [clamp16, max_eq_right hlo, min_eq_right hhi, BitVec.toInt_ofInt]
  exact Int.bmod_eq_of_le (by omega) (by omega)

/-- Settles O38: at the default gain 182 a gained average is at most 32760, and the default coefficients sum to
2^16. -/
theorem defaultOutputNeverClamps : Obligations.DefaultOutputNeverClamps := by
  intro sum ov z hsum h0 hz
  refine ⟨_, rfl, ?_⟩
  have hx : preFilter defaultParams { defaultCfg with oversample := ov } sum ≤ 180 * defaultParams.gain :=
    preFilter_le _ hsum
  generalize preFilter defaultParams { defaultCfg with oversample := ov } sum = x at hx
  have hacc : accInRange defaultParams (hpf defaultParams x z).2 := accInRange_hpf (by decide) hx ⟨h0, hz⟩
  have hx' : x ≤ 32760 := hx
  have hy : (hpf defaultParams x z).1 = (x : Int) - z / 65536 := by rw [hpf_of_enabled rfl]
  have hlo : -32760 ≤ (hpf defaultParams x z).1 := by omega
  have hhi : (hpf defaultParams x z).1 ≤ 32760 := by omega
  exact ⟨hlo, hhi, clamp16_toInt (by omega) (by omega), hacc⟩

/-! ### What the sub-ticks keep of each part -/

section
variable (s : State)

/-- The sub-ticks write no field of an amplifier but its intermediate. -/
theorem subTicks_ampAt (i : Chan) :
    s.subTicks.st.ampAt i = { s.ampAt i with inter := (s.subTicks.st.ampAt i).inter } := by
  refine subTicks_keeps (P := fun m => m.st.ampAt i = { s.ampAt i with inter := (m.st.ampAt i).inter })
    (fun _ _ hm => hm) (fun k m hm => ?_) rfl
  simp only [State.ampAt] at hm
  simp only [mixChannel, State.ampAt, ampTick_amp]
  rw [hm]

/-- The sub-ticks apply what waits in an oscillator's buffer and leave it as written. -/
theorem subTicks_osc_buffer (i : Chan) :
    (s.subTicks.st.oscAt i).nextOct = (s.oscAt i).nextOct ∧ (s.subTicks.st.oscAt i).nextOff = (s.oscAt i).nextOff ∧
      (s.subTicks.st.oscAt i).sync = (s.oscAt i).sync := by
  refine subTicks_keeps (P := fun m => (m.st.oscAt i).nextOct = (s.oscAt i).nextOct ∧
    (m.st.oscAt i).nextOff = (s.oscAt i).nextOff ∧ (m.st.oscAt i).sync = (s.oscAt i).sync)
    (fun _ _ hm => hm) (fun k m hm => ?_) ⟨rfl, rfl, rfl⟩
  simp only [mixChannel, State.oscAt, ampTick_osc]
  by_cases hik : i = k
  · subst hik
    refine oscTick_keeps (P := fun o => o.nextOct = (s.oscAt i).nextOct ∧ o.nextOff = (s.oscAt i).nextOff ∧
      o.sync = (s.oscAt i).sync) m.st i (fun _ _ _ => id) (fun o _ ho => ?_) hm
    obtain ⟨-, hsync, -, hoct, hoff⟩ := oscApplyIfNew_keeps m.st.rom (oscFlip m.st.thresh o)
    exact ⟨hoct.trans ho.1, hoff.trans ho.2.1, hsync.trans ho.2.2⟩
  · rwa [oscTick_osc_ne m.st hik]

theorem subTicks_noise_settings (j : Gen) :
    (s.subTicks.st.noiseAt j).mode = (s.noiseAt j).mode ∧ (s.subTicks.st.noiseAt j).sync = (s.noiseAt j).sync := by
  refine subTicks_keeps (P := fun m => (m.st.noiseAt j).mode = (s.noiseAt j).mode ∧
    (m.st.noiseAt j).sync = (s.noiseAt j).sync) (fun m k hm => ?_) (fun k m hm => ?_) ⟨rfl, rfl⟩
  · by_cases hjk : j = k
    · subst hjk
      obtain ⟨hmode, hsync⟩ := noiseTick_mode_sync m.st.thresh
        (noiseIncrement m.st.params m.st.cfg.clockHz (m.st.noiseAt j).mode) (m.st.noiseAt j)
      simp only [noiseTickAt_noiseAt_self]
      exact ⟨hmode.trans hm.1, hsync.trans hm.2⟩
    · simp only [noiseTickAt_noiseAt_ne m.st hjk]
      exact hm
  · exact oscTick_noise_keeps (P := fun n => n.mode = (s.noiseAt j).mode ∧ n.sync = (s.noiseAt j).sync)
      (fun n hn => ⟨(noiseTrigger_mode n).trans hn.1, (noiseTrigger_sync n).trans hn.2⟩) m.st k j hm

theorem subTicks_env_settings (j : Gen) :
    (s.subTicks.st.envAt j).enabled = (s.envAt j).enabled ∧
      (s.subTicks.st.envAt j).pendByte = (s.envAt j).pendByte := by
  refine subTicks_keeps (P := fun m => (m.st.envAt j).enabled = (s.envAt j).enabled ∧
    (m.st.envAt j).pendByte = (s.envAt j).pendByte) (fun _ _ hm => hm) (fun k m hm => ?_) ⟨rfl, rfl⟩
  refine oscTick_env_keeps (P := fun e => e.enabled = (s.envAt j).enabled ∧ e.pendByte = (s.envAt j).pendByte)
    m.st (internalClock_keeps m.st.params fun e he => ?_) k j hm
  obtain ⟨henabled, hbyte⟩ := envClock_keeps m.st.params e
  exact ⟨henabled.trans he.1, hbyte.trans he.2⟩

end

/-! ### A SAMPLE -/

/-- Settles O33: a sub-tick is its six rounds; a SAMPLE is its sub-ticks, then a filter step of each side. -/
theorem sampleEmitsOneFilteredFrame : Obligations.SampleEmitsOneFilteredFrame := by
  refine ⟨fun m => ⟨_, _, _, _, _, _, _, rfl, rfl, rfl, rfl, rfl, rfl, rfl, rfl, rfl, rfl⟩, fun s => ?_⟩
  obtain ⟨hosc, hnoise, henv, hamp, hlatch, henable, hgsync, hcfg, hparams, hpending, hzL, hzR, hout⟩ :=
    sampleOnce_spec s
  refine ⟨s.sampleOnce, s.subTicks, _, _, _, _, rfl, rfl, congrArg Nat.cast (preFilter_eq s.params s.cfg _),
    congrArg Nat.cast (preFilter_eq s.params s.cfg _), fun hon => ?_, fun hoff => ?_, hout, hosc, hnoise, henv, hamp,
    hlatch, henable, hgsync, hcfg, hparams, hpending, fun i => ?_, fun j => ?_⟩
  · rw [hzL, hzR, hpf_of_enabled hon, hpf_of_enabled hon]
    exact ⟨rfl, rfl, rfl, rfl⟩
  · rw [hzL, hzR, hpf_of_disabled hoff, hpf_of_disabled hoff]
    exact ⟨rfl, rfl, rfl, rfl⟩
  · rw [State.ampAt, State.oscAt, hamp, hosc]
    exact ⟨subTicks_ampAt s i, subTicks_osc_buffer s i⟩
  · rw [State.noiseAt, State.envAt, hnoise, henv, ← and_assoc]
    exact ⟨subTicks_noise_settings s j, subTicks_env_settings s j⟩

end Sys2Proof.Machine
end

section
/-! PROOFS. A data word and the eleven unused registers (45_device_pipeline.md R231, R232, R260 to R270). -/

namespace Sys2Proof.Machine

/-- Settles O6, from what a data word does; a register write reads no waiting request and keeps the latch. -/
theorem dataWordRunsRegWriteOfTheLatch : Obligations.DataWordRunsRegWriteOfTheLatch := by
  intro s d rest hp
  refine ⟨?_, (regWrite_frame _ _ _).1⟩
  rw [step_dataWord hp, withPending_regWrite]
  rfl

/-- The unused writes are what the unused addresses decode to, whatever the byte. -/
theorem unusedWrites_eq_map_decodeData (d : Byte) : unusedWrites = unusedAddresses.map (decodeData · d) := rfl

/-- A register write to an unused address changes nothing. -/
theorem regWrite_of_unused {l : BitVec 5} (hl : l ∈ unusedAddresses) (d : Byte) (s : State) :
    s.regWrite l d = s := by
  unfold unusedAddresses at hl
  fin_cases hl <;> rfl

/-- Settles O18: an unused write is the register write of an unused address. -/
theorem unusedRegisterWritesChangeNothing : Obligations.UnusedRegisterWritesChangeNothing := by
  refine ⟨fun i hi s => ?_, fun l hl d => ?_⟩
  · rw [unusedWrites_eq_map_decodeData 0] at hi
    obtain ⟨l, hl, rfl⟩ := List.mem_map.1 hi
    rw [exec_decodeData, regWrite_of_unused hl]
  · rw [unusedWrites_eq_map_decodeData d]
    exact List.mem_map_of_mem hl

end Sys2Proof.Machine
end

section
/-! PROOFS. The configuration operations on a value in range (45_device_pipeline.md R250 to R252). -/

namespace Sys2Proof.Machine

theorem execSetClock_of_legal {hz : Nat} (h : clockLegal hz = true) (s : State) :
    execSetClock hz s = .next (State.reloadAll { s with cfg := { s.cfg with clockHz := hz } }) :=
  if_pos h

theorem reloadAll_oscAt (s : State) (i : Chan) : s.reloadAll.oscAt i = oscReload s.rom (s.oscAt i) :=
  Six.get_map _ _ i

/-- Settles O45: every oscillator reads the table at the new rate, and no other part is written. -/
theorem setClockRecomputesEveryIncrement : Obligations.SetClockRecomputesEveryIncrement := by
  intro hz s hlo hhi
  refine ⟨_, execSetClock_of_legal ((clockLegal_iff hz).2 ⟨hlo, hhi⟩) s, rfl, fun i => ?_,
    rfl, rfl, rfl, rfl, rfl, rfl, rfl, rfl, rfl, rfl, rfl⟩
  rw [reloadAll_oscAt]
  rfl

/-- Settles O46: each operation writes its legal value, which the threshold reads. -/
theorem setRateAndOversampleChangeOnlyTheConfiguration :
    Obligations.SetRateAndOversampleChangeOnlyTheConfiguration :=
  ⟨fun hz _ hlo hhi => ⟨if_pos ((rateLegal_iff hz).2 ⟨hlo, hhi⟩), rfl⟩,
    fun n _ h => ⟨if_pos ((oversampleLegal_iff n).2 h), rfl⟩⟩

end Sys2Proof.Machine
end

section
/-! PROOFS. Which requests complete and which are refused (60_exceptions.md R280, R281): a refused step had one of the
named reasons, and no legal request has one. -/

namespace Sys2Proof.Machine

/-! ### Refusals -/

/-- An answer that is refused unless a condition holds has the named refusal, and the condition fails. -/
theorem eq_and_not_of_ite_refused {c : Prop} [Decidable c] {t : State} {r e : Refusal}
    (h : (if c then (.next t : Result) else .refused r) = .refused e) : e = r ∧ ¬ c := by
  split at h <;> cases h
  next hc => exact ⟨rfl, hc⟩

/-- A bus word always completes (30_encoding.md R86). -/
theorem step_bus_ne_refused {s : State} {w : BusWord} {rest : List Request} (hp : s.pending = .bus w :: rest)
    (e : Refusal) : step s ≠ .refused e := by
  rcases busWord_cases w with ⟨d, rfl⟩ | ⟨reg, rfl⟩
  · rw [step_dataWord hp]; exact nofun
  · rw [step_addressWord hp]; exact nofun

/-- A host record is refused for a reserved op or a configuration value outside its range. -/
theorem step_host_refused {s : State} {op : BitVec 4} {arg : Nat} {rest : List Request} {e : Refusal}
    (hp : s.pending = .host op arg :: rest) (h : step s = .refused e) :
    (e = .reservedHostOp ∧ 6 ≤ op.toNat) ∨
      (e = .configOutOfRange ∧
        (op = 3 ∧ ¬ (1 ≤ arg ∧ arg ≤ 2 ^ 25) ∨ op = 4 ∧ ¬ (1 ≤ arg ∧ arg ≤ 2 ^ 20) ∨ op = 5 ∧ ¬ arg ≤ 8)) := by
  have hexec (i : Instr) (hi : operationOf s.latch (.host op arg) = .ok i) :
      exec i { s with pending := rest } = .refused e :=
    (step_of_operationOf_ok hp hi).symm.trans h
  rcases decodeHost_cases op arg with
    ⟨rfl, -⟩ | ⟨rfl, -⟩ | ⟨rfl, -⟩ | ⟨rfl, -⟩ | ⟨rfl, -⟩ | ⟨rfl, -⟩ | ⟨hop, -⟩
  · cases hexec .sample rfl
  · cases hexec (.gen arg) rfl
  · cases hexec .clear rfl
  · obtain ⟨he, hv⟩ := eq_and_not_of_ite_refused (hexec (.setClock arg) rfl)
    exact .inr ⟨he, .inl ⟨rfl, mt (clockLegal_iff arg).2 hv⟩⟩
  · obtain ⟨he, hv⟩ := eq_and_not_of_ite_refused (hexec (.setRate arg) rfl)
    exact .inr ⟨he, .inr (.inl ⟨rfl, mt (rateLegal_iff arg).2 hv⟩)⟩
  · obtain ⟨he, hv⟩ := eq_and_not_of_ite_refused (hexec (.setOversample arg) rfl)
    exact .inr ⟨he, .inr (.inr ⟨rfl, mt (oversampleLegal_iff arg).2 hv⟩)⟩
  · cases (step_of_operationOf_error hp (operationOf_reserved s.latch hop arg)).symm.trans h
    exact .inl ⟨rfl, hop⟩

/-- Settles O9, by the kind of the host's next request. -/
theorem refusalsHaveOnlyTheNamedReasons : Obligations.RefusalsHaveOnlyTheNamedReasons := by
  intro s e h
  cases hp : s.pending with
  | nil => rw [step_of_pending_nil hp] at h; cases h
  | cons r rest =>
    cases r with
    | bus w => exact absurd h (step_bus_ne_refused hp e)
    | read what =>
      rw [step_of_operationOf_error hp rfl] at h
      cases h
      exact .inl ⟨rfl, what, rest, rfl⟩
    | host op arg =>
      rcases step_host_refused hp h with ⟨he, hop⟩ | ⟨he, ⟨rfl, hv⟩ | ⟨rfl, hv⟩ | ⟨rfl, hv⟩⟩
      · exact .inr (.inl ⟨he, op, arg, rest, rfl, hop⟩)
      · exact .inr (.inr ⟨he, arg, rest, .inl ⟨rfl, hv⟩⟩)
      · exact .inr (.inr ⟨he, arg, rest, .inr (.inl ⟨rfl, hv⟩)⟩)
      · exact .inr (.inr ⟨he, arg, rest, .inr (.inr ⟨rfl, hv⟩)⟩)

/-! ### Completion -/

/-- The requests R280 says complete: every bus word, and every host command with a legal op and value. -/
def legalRequest (r : Request) : Prop :=
  (∃ w, r = .bus w) ∨ (∃ n, r = .host 0 n) ∨ (∃ n, r = .host 2 n) ∨ (∃ n, r = .host 1 n) ∨
    (∃ hz, r = .host 3 hz ∧ 1 ≤ hz ∧ hz ≤ 2 ^ 25) ∨ (∃ hz, r = .host 4 hz ∧ 1 ≤ hz ∧ hz ≤ 2 ^ 20) ∨
    ∃ n, r = .host 5 n ∧ n ≤ 8

theorem not_legalRequest_read (what : ReadTarget) : ¬ legalRequest (.read what) := by simp [legalRequest]

theorem legalRequest_host_iff (op : BitVec 4) (arg : Nat) : legalRequest (.host op arg) ↔
    op = 0 ∨ op = 2 ∨ op = 1 ∨ op = 3 ∧ 1 ≤ arg ∧ arg ≤ 2 ^ 25 ∨ op = 4 ∧ 1 ≤ arg ∧ arg ≤ 2 ^ 20 ∨
      op = 5 ∧ arg ≤ 8 := by
  simp [legalRequest]

/-- An operation leaves the host's waiting requests alone. -/
theorem exec_pending {i : Instr} {s t : State} (h : exec i s = .next t) : t.pending = s.pending := by
  refine exec_keeps (P := fun u => u.pending = s.pending) (fun reg u hu => ?_) (fun a d u hu => ?_)
    (fun u hu => ?_) (fun _ _ _ hu => hu) (fun _ _ _ hu => hu) (fun _ _ _ hu => hu) h rfl
  · obtain ⟨-, -, -, -, -, -, -, -, -, -, -, -, hpending⟩ := addressWrite_spec reg u
    exact hpending.trans hu
  · obtain ⟨-, -, -, -, -, -, hpending⟩ := regWrite_frame a d u
    exact hpending.trans hu
  · obtain ⟨-, -, -, -, -, -, -, -, -, hpending, -⟩ := sampleOnce_spec u
    exact hpending.trans hu

/-- A step that answers a next state takes the first request and keeps the parameters. -/
theorem step_pending_params {s t : State} {r : Request} {rest : List Request} (hp : s.pending = r :: rest)
    (h : step s = .next t) : t.pending = rest ∧ t.params = s.params := by
  rcases step_cases h with ⟨hnil, -⟩ | ⟨r', rest', i, hp', -, hexec⟩
  · exact absurd (hnil.symm.trans hp) nofun
  · cases hp.symm.trans hp'
    obtain ⟨hparams, -⟩ := exec_params_cfg hexec
    exact ⟨exec_pending hexec, hparams⟩

/-- A legal request has none of the reasons of R281. -/
theorem step_ne_refused_of_legal {s : State} {r : Request} {rest : List Request} (hp : s.pending = r :: rest)
    (hr : legalRequest r) (e : Refusal) : step s ≠ .refused e := by
  intro h
  cases r with
  | bus w => exact step_bus_ne_refused hp e h
  | read what => exact not_legalRequest_read what hr
  | host op arg =>
    rw [legalRequest_host_iff] at hr
    rcases step_host_refused hp h with ⟨-, hop⟩ | ⟨-, ⟨rfl, hv⟩ | ⟨rfl, hv⟩ | ⟨rfl, hv⟩⟩
    · rcases hr with rfl | rfl | rfl | ⟨rfl, -⟩ | ⟨rfl, -⟩ | ⟨rfl, -⟩ <;> exact absurd hop (by decide)
    · exact hv (by simpa using hr)
    · exact hv (by simpa using hr)
    · exact hv (by simpa using hr)

/-- Settles O5: no legal request has a reason to be refused, and there is no fault, so the step answers a next
state. -/
theorem everyLegalRequestCompletes : Obligations.EveryLegalRequestCompletes := by
  refine ⟨fun s r rest hp hr => ?_, fun _ => nofun⟩
  cases h : step s with
  | next t => exact ⟨t, rfl, step_pending_params hp h⟩
  | fault f => exact nomatch f
  | refused e => exact absurd h (step_ne_refused_of_legal hp hr e)

end Sys2Proof.Machine
end

section
/-! PROOFS. The power-on state (70_reset_and_hazards.md R300). CLEAR leads back to it: under the global sync its first
write sets, the block takes a write of 0 to any register but 28 without a change, and its last one releases the sync. -/

namespace Sys2Proof.Machine

section
variable (p : Params) (c : Cfg)

/-- The power-on block with the global sync and the latch as given: what CLEAR passes through from power-on. -/
def State.powerOnSync (sy : Bool) (l : BitVec 5) : State :=
  { (State.powerOn p c).globalControl false sy with latch := l }

theorem powerOnSync_released : State.powerOnSync p c false 0 = State.powerOn p c := rfl

/-- An address write only moves the latch: at power-on no envelope generator takes an external clock. -/
theorem addressWrite_powerOnSync (sy : Bool) (l : BitVec 5) (reg : Byte) :
    (State.powerOnSync p c sy l).addressWrite reg = State.powerOnSync p c sy (regOfByte reg) := by
  unfold State.addressWrite
  dsimp only
  split
  · rfl
  · split <;> rfl

/-- Under global sync a write of 0 changes nothing, except that register 28 releases the sync. -/
theorem regWrite_zero_powerOnSync (l a : BitVec 5) :
    (State.powerOnSync p c true l).regWrite a 0 = State.powerOnSync p c (a != 28) l := by
  refine reg_cases (P := fun a => (State.powerOnSync p c true l).regWrite a 0 = State.powerOnSync p c (a != 28) l)
    (fun n => ?_) a
  fin_cases n <;> rfl

theorem writeAddressData_zero_powerOnSync (l : BitVec 5) (a : Byte) :
    (State.powerOnSync p c true l).writeAddressData a 0 =
      State.powerOnSync p c (regOfByte a != 28) (regOfByte a) := by
  rw [State.writeAddressData, addressWrite_powerOnSync, regWrite_zero_powerOnSync]

/-- Writes of 0 to registers other than 28 only move the latch. -/
theorem foldl_zero_writes_powerOnSync (as : List Byte) (has : ∀ a ∈ as, regOfByte a ≠ 28) (l : BitVec 5) :
    ∃ l', as.foldl (fun s a => s.writeAddressData a 0) (State.powerOnSync p c true l) =
      State.powerOnSync p c true l' := by
  induction as generalizing l with
  | nil => exact ⟨l, rfl⟩
  | cons a as ih =>
    obtain ⟨ha, has⟩ := List.forall_mem_cons.1 has
    rw [List.foldl_cons, writeAddressData_zero_powerOnSync, bne_iff_ne.2 ha]
    exact ih has _

theorem clearAddresses_ne_ctrl : ∀ a ∈ clearAddresses, regOfByte a ≠ 28 := by decide

/-- CLEAR leads from the power-on state to the same state. -/
theorem clearAll_powerOn : (State.powerOn p c).clearAll = State.powerOn p c := by
  have hsync : (State.powerOn p c).writeAddressData 28 2 = State.powerOnSync p c true 28 := rfl
  obtain ⟨l, hzeros⟩ := foldl_zero_writes_powerOnSync p c clearAddresses clearAddresses_ne_ctrl 28
  have hrelease : (State.powerOnSync p c true l).writeAddressData 28 0 = State.powerOnSync p c false 28 :=
    writeAddressData_zero_powerOnSync p c l 28
  have hlatch : (State.powerOnSync p c false 28).addressWrite 0 = State.powerOnSync p c false 0 :=
    addressWrite_powerOnSync p c false 28 0
  simp only [State.clearAll, hsync, hzeros, hrelease, hlatch, powerOnSync_released]

end

/-- Settles O53: the fields are the table's at every part, and CLEAR's writes cancel. -/
theorem powerOnState : Obligations.PowerOnState := by
  refine ⟨fun p c s hs => ?_, rfl, rfl, by decide⟩
  subst hs
  exact ⟨powerOn_oscAt p c, powerOn_noiseAt p c, powerOn_envAt p c, powerOn_ampAt p c,
    rfl, rfl, rfl, rfl, rfl, rfl, congrArg Host.Outcome.next (clearAll_powerOn p c)⟩

end Sys2Proof.Machine
end

section
/-! PROOFS. The invariants of the oscillators and their buffers, of the noise generators and of the envelope generators
(10_state.md R23, R27; 41_frequency_generator.md R104; 42_noise_generator.md R142, R145): what each operation on one
part keeps of it, every step keeps of the whole bank. -/

namespace Sys2Proof.Machine

/-! ### Banks and steps -/

section
variable {α : Type} {P : α → Prop}

/-- What holds of every part of six holds of every part when one is replaced by a part it holds of. -/
theorem Six.forall_get_set {v : Six α} {x : α} (h : ∀ k, P (v.get k)) (i : Chan) (hx : P x) (k : Chan) :
    P ((v.set i x).get k) := by
  rw [Six.get_set]
  split
  · exact hx
  · exact h k

theorem Six.forall_get_map {v : Six α} {f : α → α} (h : ∀ k, P (f (v.get k))) (k : Chan) : P ((v.map f).get k) := by
  rw [Six.get_map]
  exact h k

/-- What holds of both parts holds of both when one is replaced by a part it holds of. -/
theorem Two.forall_get_set {v : Two α} {x : α} (h : ∀ k, P (v.get k)) (j : Gen) (hx : P x) (k : Gen) :
    P ((v.set j x).get k) := by
  rw [Two.get_set]
  split
  · exact hx
  · exact h k

theorem Two.forall_get_map {v : Two α} {f : α → α} (h : ∀ k, P (f (v.get k))) (k : Gen) : P ((v.map f).get k) := by
  rw [Two.get_map]
  exact h k

end

/-- A property that every operation keeps, and that does not read the waiting requests, is kept by every step. -/
theorem step_keeps {P : State → Prop} (hq : ∀ q s, P s → P (s.withPending q))
    (hexec : ∀ i s t, exec i s = .next t → P s → P t) {s t : State} (e : step s = .next t) (h : P s) : P t := by
  rcases step_cases e with ⟨-, rfl⟩ | ⟨_, rest, i, -, -, e⟩
  · exact h
  · exact hexec i _ t e (hq rest s h)

/-! ### A property of every oscillator -/

theorem rom_of_sameStream {s t : State} (h : sameStream s t) : t.rom = s.rom := by
  obtain ⟨hcfg, hparams, -⟩ := h
  unfold State.rom
  rw [hcfg, hparams]

theorem sameStream_addressWrite (reg : Byte) (s : State) : sameStream s (s.addressWrite reg) := by
  obtain ⟨-, -, -, -, -, -, -, -, -, hstream⟩ := addressWrite_spec reg s
  exact hstream

/-- Every oscillator has a property that may speak of the period table. -/
def State.allOsc (Q : (BitVec 3 → Byte → Nat) → Osc → Prop) (s : State) : Prop := ∀ i, Q s.rom (s.osc.get i)

/-- Each operation on an oscillator keeps a property of it that may speak of the period table: the writes and the
sync (R102, R103, R105), adding to the counter and a crossing outside sync (R106, R107), and the reload that a new
clock rate brings, which finds a new table (45_device_pipeline.md R250). -/
structure OscOperationsKeep (Q : (BitVec 3 → Byte → Nat) → Osc → Prop) : Prop where
  setOffset : ∀ rom v o, Q rom o → Q rom (oscSetOffset rom v o)
  setOctave : ∀ rom v o, Q rom o → Q rom (oscSetOctave rom v o)
  sync : ∀ rom b o, Q rom o → Q rom (oscSync rom b o)
  count : ∀ rom o c, o.sync = false → Q rom o → Q rom { o with counter := c }
  crossing : ∀ rom th o, o.sync = false → Q rom o → Q rom (oscApplyIfNew rom (oscFlip th o))
  reload : ∀ rom rom' o, Q rom o → Q rom' (oscReload rom' o)

section
variable {Q : (BitVec 3 → Byte → Nat) → Osc → Prop}

theorem allOsc_addressWrite (reg : Byte) (s : State) (h : s.allOsc Q) : (s.addressWrite reg).allOsc Q := by
  obtain ⟨-, -, hosc, -⟩ := addressWrite_spec reg s
  rw [State.allOsc, hosc, rom_of_sameStream (sameStream_addressWrite reg s)]
  exact h

variable (hQ : OscOperationsKeep Q)
include hQ

theorem allOsc_setOctave (i : Chan) (v : BitVec 3) {s : State} (h : s.allOsc Q) : (s.setOctave i v).allOsc Q :=
  Six.forall_get_set h i (hQ.setOctave _ _ _ (h i))

theorem allOsc_regWrite (a : BitVec 5) (d : Byte) (s : State) (h : s.allOsc Q) : (s.regWrite a d).allOsc Q := by
  rcases regWrite_cases a d s with e | ⟨i, l, r, e⟩ | ⟨i, v, e⟩ | ⟨i, j, u, v, e⟩ | ⟨t, e⟩ | ⟨n, e⟩ |
      ⟨m, n, e⟩ | ⟨j, e⟩ | ⟨en, sy, e⟩ <;> rw [e]
  · exact h
  · exact h
  · exact Six.forall_get_set h i (hQ.setOffset _ _ _ (h i))
  · exact allOsc_setOctave hQ j v (allOsc_setOctave hQ i u h)
  · exact h
  · exact h
  · exact h
  · exact h
  · exact Six.forall_get_map fun k => hQ.sync _ _ _ (h k)

theorem allOsc_oscTick (i : Chan) (s : State) (h : s.allOsc Q) : (s.oscTick i).allOsc Q := by
  intro k
  rw [rom_of_sameDevice (oscTick_frame i s).1]
  by_cases hk : k = i
  · subst hk
    exact oscTick_keeps s k (hQ.count s.rom) (hQ.crossing s.rom s.thresh) (h k)
  · rw [oscTick_osc_ne s hk]
    exact h k

theorem allOsc_sampleOnce (s : State) (h : s.allOsc Q) : s.sampleOnce.allOsc Q :=
  subTicks_keeps (P := fun m => m.st.allOsc Q) (fun _ _ hm => hm) (fun i m hm => allOsc_oscTick hQ i m.st hm) h

/-- What each operation on an oscillator keeps of it, every step keeps of all six. -/
theorem allOsc_step {s t : State} (e : step s = .next t) (h : s.allOsc Q) : t.allOsc Q :=
  step_keeps (P := State.allOsc Q) (fun _ _ hs => hs)
    (fun _ _ _ => exec_keeps allOsc_addressWrite (allOsc_regWrite hQ) (allOsc_sampleOnce hQ)
      (fun _ _ _ hs => Six.forall_get_map fun k => hQ.reload _ _ _ (hs k)) (fun _ _ _ => id) (fun _ _ _ => id)) e h

end

/-! ### The oscillator invariant -/

/-- The oscillator invariant of R23, of one oscillator. -/
def oscSettled (rom : BitVec 3 → Byte → Nat) (o : Osc) : Prop :=
  o.add = rom o.curOct o.curOff ∧
    (o.sync = true → o.counter = 0 ∧ o.newData = false ∧ o.octWritten = false ∧ o.ignoreOffset = false) ∧
    (o.ignoreOffset = true → o.newData = true)

/-- Under sync a write is in use at once and nothing waits; outside sync every write marks new data, and a boundary
that skips the offset leaves it waiting. -/
theorem oscSettled_kept : OscOperationsKeep oscSettled where
  setOffset rom v o h := by
    obtain ⟨hadd, hrest, -⟩ := h
    cases hs : o.sync with
    | true => rw [oscSetOffset_of_sync hs]; exact ⟨rfl, hrest, by simp [hrest hs]⟩
    | false => rw [oscSetOffset_of_not_sync hs]; exact ⟨hadd, by simp [hs], fun _ => rfl⟩
  setOctave rom v o h := by
    obtain ⟨hadd, hrest, -⟩ := h
    cases hs : o.sync with
    | true => rw [oscSetOctave_of_sync hs]; exact ⟨rfl, hrest, by simp [hrest hs]⟩
    | false => rw [oscSetOctave_of_not_sync hs]; exact ⟨hadd, by simp [hs], fun _ => rfl⟩
  sync rom b o h := by
    obtain ⟨hadd, -, hskip⟩ := h
    cases b with
    | true => exact ⟨rfl, fun _ => ⟨rfl, rfl, rfl, rfl⟩, nofun⟩
    | false => exact ⟨hadd, nofun, hskip⟩
  count rom o c hs h := by
    obtain ⟨hadd, -, hskip⟩ := h
    exact ⟨hadd, by simp [hs], hskip⟩
  crossing rom th o hs h := by
    obtain ⟨hadd, -, hskip⟩ := h
    rw [oscApplyIfNew_eq]
    split
    · exact ⟨hadd, by simp [oscFlip, hs], hskip⟩
    · next hnew =>
      split
      · exact ⟨rfl, by simp [oscFlip, hs], nofun⟩
      · next hig => exact ⟨rfl, by simp [oscFlip, hs], fun hig' => absurd hig' hig⟩
  reload _ _ _ h := ⟨rfl, h.2⟩

/-- Settles O55: each operation on an oscillator keeps its invariant. -/
theorem oscillatorInvariantIsKept : Obligations.OscillatorInvariantIsKept :=
  fun _ _ h e => allOsc_step oscSettled_kept e h

/-! ### The buffer invariant -/

/-- What waits in the buffer of one oscillator (R104). -/
def oscBuffered (o : Osc) : Prop :=
  (o.octWritten = false → o.nextOct = o.curOct) ∧
    (o.newData = false → o.nextOff = o.curOff ∧ o.octWritten = false)

/-- A value is written to the buffer and put in use together, or marked as waiting until it is in use. -/
theorem oscBuffered_kept : OscOperationsKeep fun _ => oscBuffered where
  setOffset rom v o h := by
    obtain ⟨hoct, hoff⟩ := h
    cases hs : o.sync with
    | true => rw [oscSetOffset_of_sync hs]; exact ⟨hoct, fun hnew => ⟨rfl, (hoff hnew).2⟩⟩
    | false => rw [oscSetOffset_of_not_sync hs]; exact ⟨hoct, nofun⟩
  setOctave rom v o h := by
    obtain ⟨-, hoff⟩ := h
    cases hs : o.sync with
    | true => rw [oscSetOctave_of_sync hs]; exact ⟨fun _ => rfl, hoff⟩
    | false => rw [oscSetOctave_of_not_sync hs]; exact ⟨nofun, nofun⟩
  sync rom b o h := by
    cases b with
    | true => exact ⟨fun _ => rfl, fun _ => ⟨rfl, rfl⟩⟩
    | false => exact h
  count _ _ _ _ h := h
  crossing rom th o _ h := by
    rw [oscApplyIfNew_eq]
    split
    · exact h
    · next hnew =>
      split
      · exact ⟨fun _ => rfl, fun hnew' => absurd hnew' hnew⟩
      · exact ⟨fun _ => rfl, fun _ => ⟨rfl, rfl⟩⟩
  reload _ _ _ h := h

/-! ### The noise invariant -/

/-- A synced noise generator's counter is 0 (R142, R145). -/
def noiseHeld (n : Noise) : Prop := n.sync = true → n.counter = 0

theorem noiseTick_of_sync {n : Noise} (h : n.sync = true) (th inc : Nat) : noiseTick th inc n = n :=
  if_pos (by rw [h]; rfl)

theorem noiseHeld_noiseTick (th inc : Nat) {n : Noise} (h : noiseHeld n) : noiseHeld (noiseTick th inc n) := by
  intro hs
  rw [(noiseTick_mode_sync th inc n).2] at hs
  rw [noiseTick_of_sync hs]
  exact h hs

theorem noiseHeld_noiseSync (b : Bool) (n : Noise) : noiseHeld (noiseSync b n) := by
  cases b with
  | true => exact fun _ => rfl
  | false => exact nofun

theorem noiseInv_addressWrite (reg : Byte) (s : State) (h : s.noiseInv) : (s.addressWrite reg).noiseInv := by
  obtain ⟨-, -, -, hnoise, -⟩ := addressWrite_spec reg s
  simpa only [State.noiseInv, State.noiseAt, hnoise] using h

theorem noiseInv_regWrite (a : BitVec 5) (d : Byte) (s : State) (h : s.noiseInv) : (s.regWrite a d).noiseInv := by
  rcases regWrite_cases a d s with e | ⟨i, l, r, e⟩ | ⟨i, v, e⟩ | ⟨i, j, u, v, e⟩ | ⟨t, e⟩ | ⟨n, e⟩ |
      ⟨m, n, e⟩ | ⟨j, e⟩ | ⟨en, sy, e⟩ <;> rw [e]
  · exact h
  · exact h
  · exact h
  · exact h
  · exact h
  · exact h
  · intro j
    fin_cases j
    · exact h 0
    · exact h 1
  · exact h
  · exact Two.forall_get_map (P := noiseHeld) fun k => noiseHeld_noiseSync sy _

theorem noiseInv_oscTick (i : Chan) (s : State) (h : s.noiseInv) : (s.oscTick i).noiseInv := fun j =>
  oscTick_noise_keeps (P := noiseHeld)
    (fun n hn => by rw [noiseHeld, noiseTrigger_sync, noiseTrigger_counter]; exact hn) s i j (h j)

theorem noiseInv_sampleOnce (s : State) (h : s.noiseInv) : s.sampleOnce.noiseInv :=
  subTicks_keeps (P := fun m => m.st.noiseInv)
    (fun _ j hm => Two.forall_get_set (P := noiseHeld) hm j (noiseHeld_noiseTick _ _ (hm j)))
    (fun i m hm => noiseInv_oscTick i m.st hm) h

theorem noiseInv_step {s t : State} (e : step s = .next t) (h : s.noiseInv) : t.noiseInv :=
  step_keeps (P := State.noiseInv) (fun _ _ hs => hs)
    (fun _ _ _ => exec_keeps noiseInv_addressWrite noiseInv_regWrite noiseInv_sampleOnce (fun _ _ _ => id)
      (fun _ _ _ => id) (fun _ _ _ => id)) e h

/-- Settles O56: each operation on an oscillator keeps its buffer's invariant, each on a noise generator the other. -/
theorem bufferAndNoiseInvariantsAreKept : Obligations.BufferAndNoiseInvariantsAreKept :=
  fun _ _ e => ⟨allOsc_step oscBuffered_kept e, noiseInv_step e⟩

/-! ### The envelope invariant -/

/-- The envelope invariant of R27, of one envelope generator. -/
def envSettled (p : Params) (e : Env) : Prop :=
  e.phase.val < phaseCount (romEnv p e.waveform) ∧
    (e.enabled = false → e.ended = true ∧ e.ready = true ∧ e.pendValid = false ∧ e.phase = 0) ∧
    (e.pendValid = true → e.enabled = true ∧ e.ready = false)

section
variable {p : Params} {e : Env}

/-- A load into an enabled generator starts the contour, with nothing buffered. -/
theorem envSettled_envLoad (b : Byte) (hen : e.enabled = true) : envSettled p (envLoad b e) :=
  ⟨phaseCount_pos _, by simp [hen], nofun⟩

theorem envSettled_envSetControl (b : Byte) (h : envSettled p e) : envSettled p (envSetControl b e) := by
  obtain ⟨hphase, -, -⟩ := h
  cases hb : ctrlEnable b with
  | false =>
    rw [envSetControl_of_disable hb]
    exact ⟨phaseCount_pos _, fun _ => ⟨rfl, rfl, rfl, rfl⟩, nofun⟩
  | true =>
    by_cases hfree : e.enabled = false ∨ e.ready = true
    · rw [envSetControl_of_enable hb hfree]
      exact envSettled_envLoad b rfl
    · obtain ⟨hen, hready⟩ : e.enabled = true ∧ e.ready = false := by simpa using hfree
      rw [envSetControl_of_buffer hb hen hready]
      exact ⟨hphase, by simp [envBuffer, hen], fun _ => ⟨hen, hready⟩⟩

/-- A clock of a running generator moves the position, enters a phase that is left, or ends the cycle, which loads
what is buffered. -/
theorem envSettled_envClock (h : envSettled p e) : envSettled p (envClock p e) := by
  obtain ⟨hphase, hoff, hbuf⟩ := h
  by_cases hstop : e.enabled = false ∨ e.ended = true
  · rw [envClock_of_stopped p e hstop]
    exact ⟨hphase, hoff, hbuf⟩
  obtain ⟨hen, hended⟩ : e.enabled = true ∧ e.ended = false := by simpa using hstop
  obtain ⟨-, -, hrun⟩ := envelopeClockCases p e
  obtain ⟨hbelow, hcross⟩ := hrun hen hended fun hpend => (hbuf hpend).2
  rcases Nat.lt_or_ge (e.pos.toNat + stepSize e.res3) 16 with hq | hq
  · rw [hbelow hq]
    exact ⟨hphase, hoff, hbuf⟩
  obtain ⟨hleft, hlast, hload⟩ := hcross hq
  rcases Nat.lt_or_ge (e.phase.val + 1) (phaseCount (romEnv p e.waveform)) with hph | hph
  · rw [hleft hph]
    exact ⟨Nat.lt_of_le_of_lt (Nat.le_add_left 1 _) hph, by simp [hen], hbuf⟩
  cases hpend : e.pendValid with
  | false =>
    rw [hlast hph hpend]
    exact ⟨phaseCount_pos _, by simp [hen], by simp [hpend]⟩
  | true =>
    rw [hload hph hpend]
    exact ⟨phaseCount_pos _, by simp [hen], nofun⟩

end

theorem envInv_addressWrite (reg : Byte) (s : State) (h : s.envInv) : (s.addressWrite reg).envInv := by
  intro j
  rw [addressWrite_envAt, (addressWrite_cfg_params reg s).2]
  split
  · exact externalClock_keeps (P := envSettled s.params) s.params (fun _ => envSettled_envClock) _ (h j)
  · exact h j

theorem envInv_regWrite (a : BitVec 5) (d : Byte) (s : State) (h : s.envInv) : (s.regWrite a d).envInv := by
  rcases regWrite_cases a d s with e | ⟨i, l, r, e⟩ | ⟨i, v, e⟩ | ⟨i, j, u, v, e⟩ | ⟨t, e⟩ | ⟨n, e⟩ |
      ⟨m, n, e⟩ | ⟨j, e⟩ | ⟨en, sy, e⟩ <;> rw [e]
  · exact h
  · exact h
  · exact h
  · exact h
  · exact h
  · exact h
  · exact h
  · exact Two.forall_get_set (P := envSettled s.params) h j (envSettled_envSetControl d (h j))
  · exact h

theorem envInv_oscTick (i : Chan) (s : State) (h : s.envInv) : (s.oscTick i).envInv := by
  intro j
  rw [params_of_sameDevice (oscTick_frame i s).1]
  exact oscTick_env_keeps (P := envSettled s.params) s
    (internalClock_keeps s.params fun _ => envSettled_envClock) i j (h j)

theorem envInv_sampleOnce (s : State) (h : s.envInv) : s.sampleOnce.envInv :=
  subTicks_keeps (P := fun m => m.st.envInv) (fun _ _ hm => hm) (fun i m hm => envInv_oscTick i m.st hm) h

/-- Settles O57: a control write and a clock keep the invariant of their generator. -/
theorem envelopeInvariantIsKept : Obligations.EnvelopeInvariantIsKept :=
  fun _ _ h e => step_keeps (P := State.envInv) (fun _ _ hs => hs)
    (fun _ _ _ => exec_keeps envInv_addressWrite envInv_regWrite envInv_sampleOnce (fun _ _ _ => id)
      (fun _ _ _ => id) (fun _ _ _ => id)) e h

end Sys2Proof.Machine
end

section
/-! PROOFS. Which operations change the latch (30_encoding.md R89), the writes that can be repeated (20_memory.md R65),
and the order of an octave and an offset write (41_frequency_generator.md R119). -/

namespace Sys2Proof.Machine

/-! ### The latch -/

theorem addressWrite_latch (reg : Byte) (s : State) : (s.addressWrite reg).latch = regOfByte reg :=
  (addressWrite_spec reg s).1

/-- CLEAR ends with the address write of 0. -/
theorem clearAll_latch (s : State) : s.clearAll.latch = 0 := by
  rw [clearAll_eq_writeAll, addressWrite_latch]
  rfl

/-- Settles O51, by the rule an operation runs. -/
theorem latchChangesOnlyByAddressWriteAndClear : Obligations.LatchChangesOnlyByAddressWriteAndClear := by
  intro i s t h
  refine ⟨?_, ?_, fun hwa hclear => ?_⟩
  · rintro reg rfl
    cases h
    exact addressWrite_latch reg s
  · rintro rfl
    cases h
    exact clearAll_latch s
  · rcases exec_cases i s with
        ⟨reg, hi, e⟩ | ⟨l, d, -, e⟩ | ⟨n, -, e⟩ | ⟨hi, -⟩ | ⟨hz, -, e⟩ | ⟨hz, -, e⟩ | ⟨n, -, e⟩
    · exact absurd hi (hwa reg)
    · rw [e] at h; cases h; exact (regWrite_frame l d s).1
    · rw [e] at h; cases h; exact (iter_sampleOnce_keeps n s).1
    · exact absurd hi hclear
    · rw [e] at h; split at h <;> cases h; rfl
    · rw [e] at h; split at h <;> cases h; rfl
    · rw [e] at h; split at h <;> cases h; rfl

/-! ### Repeated writes -/

theorem setAmpLevel_setAmpLevel (i : Chan) (l r : BitVec 4) (s : State) :
    (s.setAmpLevel i l r).setAmpLevel i l r = s.setAmpLevel i l r := by
  simp only [State.setAmpLevel, State.setAmp, State.ampAt, Six.get_set_self, Six.set_set]

theorem setToneMixers_setToneMixers (m : BitVec 6) (s : State) :
    (s.setToneMixers m).setToneMixers m = s.setToneMixers m := by
  simp only [State.setToneMixers, setToneMixer, State.ampAt, Six.get_ofFn]

theorem setNoiseMixers_setNoiseMixers (m : BitVec 6) (s : State) :
    (s.setNoiseMixers m).setNoiseMixers m = s.setNoiseMixers m := by
  simp only [State.setNoiseMixers, setNoiseMixer, State.ampAt, Six.get_ofFn]

theorem oscSync_oscSync (rom : BitVec 3 → Byte → Nat) (b : Bool) (o : Osc) :
    oscSync rom b (oscSync rom b o) = oscSync rom b o := by
  cases b <;> rfl

theorem noiseSync_noiseSync (b : Bool) (n : Noise) : noiseSync b (noiseSync b n) = noiseSync b n := by
  cases b <;> rfl

theorem globalControl_globalControl (en sy : Bool) (s : State) :
    (s.globalControl en sy).globalControl en sy = s.globalControl en sy := by
  have hosc : (s.globalControl en sy).osc.map (oscSync s.rom sy) = (s.globalControl en sy).osc :=
    Six.ext_get fun i => by simp only [State.globalControl, Six.get_map, oscSync_oscSync]
  have hnoise : (s.globalControl en sy).noise.map (noiseSync sy) = (s.globalControl en sy).noise :=
    Two.ext_get fun j => by simp only [State.globalControl, Two.get_map, noiseSync_noiseSync]
  calc (s.globalControl en sy).globalControl en sy
    _ = { s.globalControl en sy with
          osc := (s.globalControl en sy).osc.map (oscSync s.rom sy)
          noise := (s.globalControl en sy).noise.map (noiseSync sy) } := rfl
    _ = s.globalControl en sy := by rw [hosc, hnoise]

/-- Settles O19: each of the writes sets its fields to what they already are. -/
theorem plainRegisterWritesAreIdempotent : Obligations.PlainRegisterWritesAreIdempotent := by
  rintro i s t (⟨c, l, r, rfl⟩ | ⟨m, rfl⟩ | ⟨m, rfl⟩ | ⟨a, b, rfl⟩ | ⟨en, sy, rfl⟩) h
  · rw [exec_ampWrite] at h ⊢
    cases h
    exact congrArg Host.Outcome.next (setAmpLevel_setAmpLevel c l r s)
  · cases h; exact congrArg Host.Outcome.next (setToneMixers_setToneMixers m s)
  · cases h; exact congrArg Host.Outcome.next (setNoiseMixers_setNoiseMixers m s)
  · cases h; rfl
  · cases h; exact congrArg Host.Outcome.next (globalControl_globalControl en sy s)

/-! ### An octave and an offset write -/

/-- The octave write of a pair, at the oscillator of the pair that takes the octave x. -/
theorem setOctaves_oscAt_of_pair {k : Fin 3} {u v x : BitVec 3} {i : Chan}
    (h : (i = pairLow k ∧ x = u) ∨ (i = pairHigh k ∧ x = v)) (s : State) :
    (s.setOctaves (pairLow k) (pairHigh k) u v).oscAt i = oscSetOctave s.rom x (s.oscAt i) := by
  have hne := pairLow_ne_pairHigh k
  rw [setOctaves_oscAt hne]
  obtain ⟨rfl, rfl⟩ | ⟨rfl, rfl⟩ := h
  · rw [if_pos rfl]
  · rw [if_neg hne.symm, if_pos rfl]

/-- What a boundary makes of its oscillator: the flip, then what waits. -/
def oscBoundary (s : State) (o : Osc) : Osc := oscApplyIfNew s.rom (oscFlip s.thresh o)

theorem crossing_oscAt_self (i : Chan) (s : State) : (s.crossing i).oscAt i = oscBoundary s (s.oscAt i) :=
  crossing_osc_self i s

theorem crossing_crossing_oscAt_self (i : Chan) (s : State) :
    ((s.crossing i).crossing i).oscAt i = oscBoundary s (oscBoundary s (s.oscAt i)) := by
  obtain ⟨hdevice, -⟩ := crossing_frame i s
  rw [crossing_oscAt_self, crossing_oscAt_self, oscBoundary, rom_of_sameDevice hdevice, thresh_of_sameDevice hdevice]
  rfl

section
variable {o : Osc} (hsync : o.sync = false)
include hsync

/-- The offset written after an octave marks itself to be skipped at the next boundary. -/
theorem oscSetOffset_oscSetOctave_of_not_sync (rom rom' : BitVec 3 → Byte → Nat) (w : Byte) (x : BitVec 3) :
    oscSetOffset rom w (oscSetOctave rom' x o) =
      { o with nextOct := x, nextOff := w, newData := true, octWritten := true, ignoreOffset := true } := by
  rw [oscSetOctave_of_not_sync hsync, oscSetOffset_of_not_sync (by exact hsync)]
  rfl

/-- The offset written before an octave, with none written before it, marks nothing to be skipped. -/
theorem oscSetOctave_oscSetOffset_of_not_sync (hoct : o.octWritten = false)
    (rom rom' : BitVec 3 → Byte → Nat) (w : Byte) (x : BitVec 3) :
    oscSetOctave rom x (oscSetOffset rom' w o) =
      { o with nextOct := x, nextOff := w, newData := true, octWritten := true } := by
  rw [oscSetOffset_of_not_sync hsync, oscSetOctave_of_not_sync (by exact hsync), hoct]
  rfl

end

/-- Settles O23: the offset written after the octave is skipped by the first boundary, so in use from the second; the
one written before it is not. -/
theorem octaveThenOffsetDefersTheOffset : Obligations.OctaveThenOffsetDefersTheOffset := by
  intro k u v w s a b c d i x hi hsync _ hoct hskip ha hb hc hd
  rw [exec_octaveWrite] at ha hd
  rw [exec_offsetWrite] at hb hc
  cases ha; cases hb; cases hc; cases hd
  rw [crossing_crossing_oscAt_self, crossing_oscAt_self, crossing_oscAt_self, setOffset_oscAt_self,
    setOctaves_oscAt_of_pair hi, setOctaves_oscAt_of_pair hi, setOffset_oscAt_self,
    oscSetOffset_oscSetOctave_of_not_sync hsync, oscSetOctave_oscSetOffset_of_not_sync hsync hoct, hskip]
  exact ⟨rfl, rfl, rfl, rfl, rfl, rfl, rfl, rfl, rfl⟩

end Sys2Proof.Machine
end

section
/-! PROOFS. The oscillators' counters after a SAMPLE (10_state.md R23), and the generators that a SAMPLE does not move
under the global sync (70_reset_and_hazards.md R308). -/

namespace Sys2Proof.Machine

/-! ### Counters after a SAMPLE -/

/-- A tick leaves its oscillator's counter below the threshold: the remainder outside sync, 0 under it. -/
theorem oscTick_counter_lt {s : State} (i : Chan) (hth : 0 < s.thresh) (h : s.oscInv) :
    ((s.oscTick i).oscAt i).counter < s.thresh := by
  cases hs : (s.oscAt i).sync with
  | true =>
    obtain ⟨-, hrest, -⟩ := h i
    rw [oscTick_of_sync hs, (hrest hs).1]
    exact hth
  | false =>
    rw [oscTick_osc_self hs hth rfl]
    exact Nat.mod_lt _ hth

/-- A SAMPLE under way on a device that meets the oscillator invariant, with a positive threshold. -/
def Mix.settled (th : Nat) (m : Mix) : Prop := m.st.oscInv ∧ m.st.thresh = th ∧ 0 < th

section
variable {th : Nat}

theorem settled_mixChannel (i : Chan) (m : Mix) (h : m.settled th) : (mixChannel i m).settled th := by
  obtain ⟨hinv, hth, hpos⟩ := h
  exact ⟨allOsc_oscTick oscSettled_kept i m.st hinv, (thresh_of_sameDevice (mixChannel_frame i m)).trans hth, hpos⟩

theorem settled_subTick (m : Mix) (h : m.settled th) : (subTick m).settled th :=
  subTick_keeps (fun _ _ hm => hm) settled_mixChannel h

/-- A round of one channel leaves that channel's counter below the threshold, and the others where they were. -/
theorem mixChannel_counter_lt (i : Chan) {k : Chan} {m : Mix} (h : m.settled th)
    (hk : k = i ∨ (m.st.oscAt k).counter < th) : ((mixChannel i m).st.oscAt k).counter < th := by
  obtain ⟨hinv, hth, hpos⟩ := h
  subst hth
  by_cases hki : k = i
  · subst hki
    exact oscTick_counter_lt k hpos hinv
  · have hkeep : (mixChannel i m).st.oscAt k = m.st.oscAt k := oscTick_osc_ne m.st hki
    rw [hkeep]
    exact hk.resolve_left hki

theorem foldl_mixChannel_counter_lt {k : Chan} (l : List Chan) {m : Mix} (h : m.settled th)
    (hk : k ∈ l ∨ (m.st.oscAt k).counter < th) :
    ((l.foldl (fun m i => mixChannel i m) m).st.oscAt k).counter < th := by
  induction l generalizing m with
  | nil => exact hk.resolve_left List.not_mem_nil
  | cons i l ih =>
    refine ih (settled_mixChannel i m h) ?_
    rcases hk with hmem | hlt
    · rcases List.mem_cons.1 hmem with rfl | hmem
      · exact .inr (mixChannel_counter_lt k h (.inl rfl))
      · exact .inl hmem
    · exact .inr (mixChannel_counter_lt i h (.inr hlt))

theorem mem_channels : ∀ k : Chan, k ∈ channels := by decide

/-- Every sub-tick has a round of every channel. -/
theorem subTick_counter_lt {m : Mix} (h : m.settled th) (k : Chan) : ((subTick m).st.oscAt k).counter < th :=
  foldl_mixChannel_counter_lt (m := { m with st := m.st.noiseTicks }) channels h (.inl (mem_channels k))

end

/-- Settles O35: a SAMPLE has a last sub-tick, before which the oscillator invariant still holds. -/
theorem countersAreBelowTheThresholdAfterSample : Obligations.CountersAreBelowTheThresholdAfterSample := by
  intro s t hth h e i
  cases e
  obtain ⟨n, hn⟩ := Nat.exists_eq_succ_of_ne_zero (Nat.two_pow_pos s.cfg.oversample).ne'
  have hlast : s.subTicks = subTick (iter n subTick { st := s, sumL := 0, sumR := 0 }) := by
    rw [State.subTicks, hn, iter_succ_apply]
  have hsettled : (iter n subTick { st := s, sumL := 0, sumR := 0 }).settled s.thresh :=
    iter_keeps (P := Mix.settled s.thresh) settled_subTick n ⟨h, rfl, hth⟩
  have hcounter : (s.subTicks.st.oscAt i).counter < s.thresh := hlast ▸ subTick_counter_lt hsettled i
  exact hcounter.trans_eq (thresh_of_sameDevice (subTicks_frame s)).symm

/-! ### A SAMPLE under the global sync -/

theorem noiseTickAt_of_sync {s : State} {j : Gen} (h : (s.noiseAt j).sync = true) : s.noiseTickAt j = s := by
  rw [State.noiseTickAt, noiseTick_of_sync h, State.setNoise, State.noiseAt, Two.set_get]

/-- Settles O37: each tick of a synced oscillator or noise generator leaves the device as it was, so no trigger fires
either. -/
theorem syncedSampleMovesNoGenerator : Obligations.SyncedSampleMovesNoGenerator := by
  intro s t hcopy hsync e
  cases e
  obtain ⟨hchan, hgen⟩ := hcopy
  have hticks : sameGenerators s s.subTicks.st := by
    refine subTicks_keeps (P := fun m => sameGenerators s m.st) (fun m j hm => ?_) (fun i m hm => ?_)
      ⟨rfl, rfl, rfl, rfl, rfl⟩
    · have ⟨_, hnoise, _⟩ := hm
      have hj : (m.st.noiseAt j).sync = true := by rw [State.noiseAt, hnoise, hgen j, hsync]
      rwa [noiseTickAt_of_sync hj]
    · have ⟨hosc, _⟩ := hm
      obtain ⟨-, -, hcopy⟩ := hchan i
      have hi : (m.st.oscAt i).sync = true := by rw [State.oscAt, hosc, hcopy, hsync]
      rwa [mixChannel, State.ampTick, oscTick_of_sync hi]
  exact hticks

end Sys2Proof.Machine
end

section
/-! PROOFS. Two devices side by side: the generators depend on nothing but the generators (44_amplifier_mixer.md R200,
45_device_pipeline.md R240), and the left side on nothing of the right (44_amplifier_mixer.md R203, 45_device_pipeline.md
R243). -/

namespace Sys2Proof.Machine

/-! ### Two runs of a loop -/

/-- A relation that one round of two loops keeps holds after the same number of rounds. -/
theorem iter_rel {α β : Type} {R : α → β → Prop} {f : α → α} {g : β → β} (h : ∀ a b, R a b → R (f a) (g b)) (n : Nat)
    {a : α} {b : β} (hab : R a b) : R (iter n f a) (iter n g b) := by
  induction n generalizing a b with
  | zero => exact hab
  | succ n ih => exact ih (h a b hab)

/-- A relation of two SAMPLEs under way that a noise tick and every channel's round keep holds after the sub-ticks of
two SAMPLEs with the same oversample exponent. -/
theorem subTicks_rel {R : Mix → Mix → Prop}
    (hn : ∀ m m' j, R m m' → R { m with st := m.st.noiseTickAt j } { m' with st := m'.st.noiseTickAt j })
    (hc : ∀ i m m', R m m' → R (mixChannel i m) (mixChannel i m')) {s s' : State} (hcfg : s'.cfg = s.cfg)
    (h : R { st := s, sumL := 0, sumR := 0 } { st := s', sumL := 0, sumR := 0 }) : R s.subTicks s'.subTicks := by
  rw [State.subTicks, State.subTicks, hcfg]
  refine iter_rel (fun m m' hm => ?_) _ h
  exact List.foldl_rel (hn _ _ 1 (hn m m' 0 hm)) fun i _ n n' => hc i n n'

/-! ### The generators -/

/-- The generators of `s`, with the configuration and the parameters they read, in the device `u`. -/
def State.withGenerators (u s : State) : State :=
  { u with osc := s.osc, noise := s.noise, env := s.env, cfg := s.cfg, params := s.params }

theorem withGenerators_of_sameGenerators {s s' : State} (h : sameGenerators s s') : s'.withGenerators s = s' := by
  obtain ⟨hosc, hnoise, henv, hcfg, hparams⟩ := h
  rw [State.withGenerators, ← hosc, ← hnoise, ← henv, ← hcfg, ← hparams]

theorem withGenerators_crossing (u : State) (i : Chan) (s : State) :
    u.withGenerators (s.crossing i) = (u.withGenerators s).crossing i := by
  fin_cases i <;> rfl

theorem withGenerators_crossings (u : State) (i : Chan) (s : State) :
    u.withGenerators (s.crossings i) = (u.withGenerators s).crossings i :=
  whileDo_map (d := fun t : State => decide (t.thresh ≤ (t.oscAt i).counter)) u.withGenerators
    (fun _ => rfl) (withGenerators_crossing u i) _ s

/-- An oscillator's tick is the same in every device. -/
theorem withGenerators_oscTick (u : State) (i : Chan) (s : State) :
    u.withGenerators (s.oscTick i) = (u.withGenerators s).oscTick i := by
  unfold State.oscTick
  rw [apply_ite u.withGenerators, withGenerators_crossings]
  rfl

section
variable {s s' : State}

theorem sameGenerators_oscTick (i : Chan) (h : sameGenerators s s') : sameGenerators (s.oscTick i) (s'.oscTick i) := by
  rw [← withGenerators_of_sameGenerators h, ← withGenerators_oscTick]
  exact ⟨rfl, rfl, rfl, rfl, rfl⟩

theorem sameGenerators_noiseTickAt (j : Gen) (h : sameGenerators s s') :
    sameGenerators (s.noiseTickAt j) (s'.noiseTickAt j) := by
  rw [← withGenerators_of_sameGenerators h]
  exact ⟨rfl, rfl, rfl, rfl, rfl⟩

/-- The sub-ticks advance the generators alone, and the end of a SAMPLE writes none of them. -/
theorem sameGenerators_sampleOnce (h : sameGenerators s s') : sameGenerators s.sampleOnce s'.sampleOnce := by
  have ⟨_, _, _, hcfg, _⟩ := h
  exact subTicks_rel (R := fun m m' => sameGenerators m.st m'.st) (fun _ _ j => sameGenerators_noiseTickAt j)
    (fun i _ _ => sameGenerators_oscTick i) hcfg h

end

/-- Settles O43: each SAMPLE takes two devices with the same generators to two such devices. -/
theorem amplifiersDoNotInfluenceGenerators : Obligations.AmplifiersDoNotInfluenceGenerators := by
  intro n s s' t t' h e e'
  cases e
  cases e'
  exact iter_rel (R := sameGenerators) (fun _ _ => sameGenerators_sampleOnce) n h

/-! ### The left side -/

/-- Two amplifiers that differ in the right volume at most. -/
def sameButRight (a a' : Amp) : Prop := a' = { a with volR := a'.volR }

/-- Two devices with the same generators whose amplifiers differ in the right volumes at most. -/
def sameLeft (s s' : State) : Prop := sameGenerators s s' ∧ ∀ i, sameButRight (s.amp.get i) (s'.amp.get i)

theorem ampAmplitudes_left {a a' : Amp} (h : sameButRight a a') (p : Params) (e : Option Env) :
    (ampAmplitudes p a' e).1 = (ampAmplitudes p a e).1 := by
  rw [h]
  cases e with
  | none => rfl
  | some e => simp only [ampAmplitudes]; split <;> rfl

section
variable {s s' : State}

theorem ampOut_left (i : Chan) (h : sameLeft s s') : (s'.ampOut i).1 = (s.ampOut i).1 := by
  obtain ⟨⟨-, -, henv, -, hparams⟩, hamp⟩ := h
  have hleft := ampAmplitudes_left (hamp i) s.params ((envOf i).map s.envAt)
  have henvAt : s'.envAt = s.envAt := by funext j; rw [State.envAt, henv]
  have hmute : (s'.ampAt i).mute = (s.ampAt i).mute := by rw [State.ampAt, hamp i]
  have hsync : (s'.ampAt i).sync = (s.ampAt i).sync := by rw [State.ampAt, hamp i]
  have hinter : (s'.ampAt i).inter = (s.ampAt i).inter := by rw [State.ampAt, hamp i]
  simp only [State.ampOut, hmute, hsync, hinter, henvAt, hparams]
  split
  · rfl
  · exact congrArg (· * _) hleft

theorem sameLeft_ampTick (i : Chan) (h : sameLeft s s') : sameLeft (s.ampTick i) (s'.ampTick i) := by
  obtain ⟨hgen, hamp⟩ := h
  have ⟨hosc, hnoise, _⟩ := sameGenerators_oscTick i hgen
  refine ⟨sameGenerators_oscTick i hgen, fun k => ?_⟩
  rw [sameButRight, ampTick_amp, ampTick_amp, hosc, hnoise, hamp i, hamp k]
  rfl

end

/-- Two SAMPLEs under way that agree on the left. -/
def Mix.sameLeft (m m' : Mix) : Prop := Machine.sameLeft m.st m'.st ∧ m'.sumL = m.sumL

theorem Mix.sameLeft_mixChannel (i : Chan) (m m' : Mix) (h : m.sameLeft m') :
    (mixChannel i m).sameLeft (mixChannel i m') := by
  obtain ⟨hst, hsum⟩ := h
  have htick := sameLeft_ampTick i hst
  exact ⟨htick, congrArg₂ (· + ·) hsum (ampOut_left i htick)⟩

theorem sameLeft_subTicks {s s' : State} (h : sameLeft s s') : s.subTicks.sameLeft s'.subTicks := by
  have ⟨⟨_, _, _, hcfg, _⟩, _⟩ := h
  exact subTicks_rel (R := Mix.sameLeft)
    (fun _ _ j ⟨⟨hgen, hamp⟩, hsum⟩ => ⟨⟨sameGenerators_noiseTickAt j hgen, hamp⟩, hsum⟩) Mix.sameLeft_mixChannel
    hcfg ⟨h, rfl⟩

/-- Two runs, from the devices `s` and `s'` to `u` and `u'`, that agree on the left: in the accumulator and in the
samples emitted since. -/
def sameLeftRuns (s s' u u' : State) : Prop :=
  sameLeft u u' ∧ u'.zL = u.zL ∧ ∃ fs fs' : List Frame, u.out = s.out ++ fs ∧ u'.out = s'.out ++ fs' ∧
    fs.map Frame.left = fs'.map Frame.left

/-- A SAMPLE filters the same left sum with the same accumulator, so it emits the same left sample. -/
theorem sameLeftRuns_sampleOnce {s s' : State} (u u' : State) (h : sameLeftRuns s s' u u') :
    sameLeftRuns s s' u.sampleOnce u'.sampleOnce := by
  obtain ⟨hleft, hz, fs, fs', hfs, hfs', hmap⟩ := h
  obtain ⟨hst, hsum⟩ := sameLeft_subTicks hleft
  obtain ⟨⟨-, -, -, hcfg, hparams⟩, -⟩ := hleft
  obtain ⟨-, -, -, -, -, -, -, -, -, -, hzL, -, hout⟩ := sampleOnce_spec u
  obtain ⟨-, -, -, -, -, -, -, -, -, -, hzL', -, hout'⟩ := sampleOnce_spec u'
  rw [hfs, List.append_assoc] at hout
  rw [hcfg, hparams, hsum, hz] at hzL' hout'
  rw [hfs', List.append_assoc] at hout'
  refine ⟨hst, hzL'.trans hzL.symm, _, _, hout, hout', ?_⟩
  rw [List.map_append, List.map_append, hmap]
  rfl

/-- Settles O44: agreement on the left is kept by every SAMPLE. -/
theorem rightSideDoesNotInfluenceTheLeft : Obligations.RightSideDoesNotInfluenceTheLeft := by
  intro n s s' t t' hgen hz hamp e e'
  cases e
  cases e'
  obtain ⟨-, hruns⟩ := iter_rel (R := sameLeftRuns s s') sameLeftRuns_sampleOnce n
    ⟨⟨hgen, hamp⟩, hz, [], [], (List.append_nil _).symm, (List.append_nil _).symm, rfl⟩
  exact hruns

end Sys2Proof.Machine
end

section
/-! PROOFS. A cycle of a contour (43_envelope_generator.md R168, R173): the positions it passes, its end, and the
single decay of the default contours. -/

namespace Sys2Proof.Machine

/-! ### Positions along a contour -/

/-- The generator m positions into its contour, 16 positions to a phase. -/
def envAlong (e : Env) (m : Nat) : Env := { e with phase := Fin.ofNat 2 (m / 16), pos := BitVec.ofNat 4 m }

theorem envAlong_zero {e : Env} (hphase : e.phase = 0) (hpos : e.pos = 0) : envAlong e 0 = e := by
  rw [envAlong, Nat.zero_div, show Fin.ofNat 2 0 = e.phase from hphase.symm,
    show BitVec.ofNat 4 0 = e.pos from hpos.symm]

@[simp] theorem envAlong_pos_toNat (e : Env) (m : Nat) : (envAlong e m).pos.toNat = m % 16 := BitVec.toNat_ofNat m 4

theorem envAlong_phase_val (e : Env) {m : Nat} (hm : m < 32) : (envAlong e m).phase.val = m / 16 :=
  Nat.mod_eq_of_lt (by omega)

/-- The length of a contour's cycle in positions. -/
def cycleLength (p : Params) (e : Env) : Nat := phaseCount (romEnv p e.waveform) * 16

theorem phaseCount_le_two (c : EnvEntry) : phaseCount c ≤ 2 := by unfold phaseCount; split <;> omega

theorem cycleLength_le (p : Params) (e : Env) : cycleLength p e ≤ 32 :=
  Nat.mul_le_mul_right 16 (phaseCount_le_two _)

theorem sixteen_le_cycleLength (p : Params) (e : Env) : 16 ≤ cycleLength p e :=
  Nat.mul_le_mul_right 16 (phaseCount_pos _)

theorem stepSize_pos (res3 : Bool) : 0 < stepSize res3 := by cases res3 <;> decide

theorem stepSize_dvd_sixteen (res3 : Bool) : stepSize res3 ∣ 16 := by cases res3 <;> decide

/-- The generator m positions along by its phase and its position, which wraps at 16. -/
theorem eq_envAlong (e : Env) {m q : Nat} {ph : Fin 2} (hm : m < 32) (hph : ph.val = m / 16) (hq : q % 16 = m % 16) :
    { e with phase := ph, pos := BitVec.ofNat 4 q } = envAlong e m := by
  have hphase : ph = (envAlong e m).phase := Fin.ext (hph.trans (envAlong_phase_val e hm).symm)
  have hpos : BitVec.ofNat 4 q = (envAlong e m).pos :=
    BitVec.eq_of_toNat_eq (by rw [envAlong_pos_toNat, BitVec.toNat_ofNat]; exact hq)
  rw [hphase, hpos]
  rfl

theorem stepSize_le_sixteen (res3 : Bool) : stepSize res3 ≤ 16 :=
  Nat.le_of_dvd (by decide) (stepSize_dvd_sixteen res3)

section
variable {p : Params} {e : Env} (hen : e.enabled = true) (hended : e.ended = false) (hpend : e.pendValid = false)
include hen hended hpend

/-- The clock of R168 along a contour: a step within the phase, into the next phase, or to the end of the cycle. -/
theorem envClock_envAlong_cases {m : Nat} (hm : m < 32) :
    (m % 16 + stepSize e.res3 < 16 →
      envClock p (envAlong e m) = { envAlong e m with pos := BitVec.ofNat 4 (m % 16 + stepSize e.res3) }) ∧
    (16 ≤ m % 16 + stepSize e.res3 →
      (m / 16 + 1 < phaseCount (romEnv p e.waveform) →
        envClock p (envAlong e m) =
          { envAlong e m with pos := BitVec.ofNat 4 (m % 16 + stepSize e.res3 - 16), phase := 1 }) ∧
      (phaseCount (romEnv p e.waveform) ≤ m / 16 + 1 →
        envClock p (envAlong e m) =
          { envAlong e m with
            pos := BitVec.ofNat 4 (m % 16 + stepSize e.res3 - 16), phase := 0, ready := true,
            ended := !(romEnv p e.waveform).loop })) := by
  obtain ⟨-, -, hrun⟩ := envelopeClockCases p (envAlong e m)
  obtain ⟨hbelow, hcross⟩ := hrun hen hended fun h => absurd (hpend.symm.trans h) Bool.false_ne_true
  rw [envAlong_pos_toNat] at hbelow
  rw [envAlong_pos_toNat, envAlong_phase_val e hm] at hcross
  refine ⟨hbelow, fun hq => ?_⟩
  obtain ⟨hleft, hlast, -⟩ := hcross hq
  exact ⟨hleft, fun hph => hlast hph hpend⟩

/-- Before the end of the cycle a clock moves one step along the contour. -/
theorem envClock_envAlong {m : Nat} (hm : m + stepSize e.res3 < cycleLength p e) :
    envClock p (envAlong e m) = envAlong e (m + stepSize e.res3) := by
  have hcount := phaseCount_le_two (romEnv p e.waveform)
  have hstep := stepSize_le_sixteen e.res3
  unfold cycleLength at hm
  obtain ⟨hbelow, hcross⟩ := envClock_envAlong_cases (p := p) hen hended hpend (m := m) (by omega)
  rcases Nat.lt_or_ge (m % 16 + stepSize e.res3) 16 with hq | hq
  · have hphase : (envAlong e m).phase.val = (m + stepSize e.res3) / 16 := by
      rw [envAlong_phase_val e (by omega)]
      omega
    exact (hbelow hq).trans (eq_envAlong e (by omega) hphase (by omega))
  · obtain ⟨hleft, -⟩ := hcross hq
    have hphase : 1 = (m + stepSize e.res3) / 16 := by omega
    exact (hleft (by omega)).trans (eq_envAlong e (by omega) hphase (by omega))

/-- The clock that completes the cycle sets `ready`, and ends the contour unless it loops. -/
theorem envClock_envAlong_last {m : Nat} (hm : m + stepSize e.res3 = cycleLength p e) :
    envClock p (envAlong e m) =
      { e with phase := 0, pos := 0, ready := true, ended := !(romEnv p e.waveform).loop } := by
  have hcount := phaseCount_le_two (romEnv p e.waveform)
  have hpos := stepSize_pos e.res3
  have hstep := stepSize_le_sixteen e.res3
  unfold cycleLength at hm
  obtain ⟨-, hcross⟩ := envClock_envAlong_cases (p := p) hen hended hpend (m := m) (by omega)
  obtain ⟨-, hlast⟩ := hcross (by omega)
  have hwrap : m % 16 + stepSize e.res3 - 16 = 0 := by omega
  rw [hlast (by omega), hwrap]
  rfl

/-! ### A cycle by the number of its clocks -/

/-- Within the cycle k clocks move k steps along the contour. -/
theorem iter_envClock_envAlong {k : Nat} (hk : k * stepSize e.res3 < cycleLength p e) :
    iter k (envClock p) (envAlong e 0) = envAlong e (k * stepSize e.res3) := by
  induction k with
  | zero => rw [Nat.zero_mul]; rfl
  | succ k ih =>
    rw [Nat.succ_mul] at hk ⊢
    rw [iter_succ_apply, ih (by omega), envClock_envAlong hen hended hpend hk]

/-- The whole cycle takes as many clocks as it has steps. -/
theorem iter_envClock_cycle {n : Nat} (hn : n * stepSize e.res3 = cycleLength p e) :
    iter n (envClock p) (envAlong e 0) =
      { e with phase := 0, pos := 0, ready := true, ended := !(romEnv p e.waveform).loop } := by
  have hlength := sixteen_le_cycleLength p e
  have hpos := stepSize_pos e.res3
  obtain _ | k := n
  · omega
  · rw [Nat.succ_mul] at hn
    rw [iter_succ_apply, iter_envClock_envAlong hen hended hpend (by omega),
      envClock_envAlong_last hen hended hpend hn]

end

/-- The steps of a cycle fill it exactly. -/
theorem cycleLength_div_mul (p : Params) (e : Env) :
    cycleLength p e / stepSize e.res3 * stepSize e.res3 = cycleLength p e :=
  Nat.div_mul_cancel ((stepSize_dvd_sixteen e.res3).mul_left _)

/-- The default waveform 2 in 4-bit resolution is the single decay. -/
theorem contourLevel_default_decay {p : Params} (hp : p.envRom = defaultEnvRom) {m : Nat} (hm : m < 16) :
    contourLevel (romEnv p 2) false 0 (BitVec.ofNat 4 m) = 15 - m := by
  have hrom : romEnv p 2 = onePhase false contourDecay := by
    change p.envRom.w2 = _
    rw [hp]
    rfl
  have hdecay := contourDecay_getD (BitVec.ofNat 4 m)
  rw [BitVec.toNat_ofNat, Nat.mod_eq_of_lt hm] at hdecay
  rw [hrom, contourLevel, BitVec.toNat_ofNat, Nat.mod_eq_of_lt hm]
  exact hdecay

/-- Settles O27: the clocks of a cycle move along the contour, the last ends it; an ended generator takes no clock. -/
theorem envelopeCycleLength : Obligations.EnvelopeCycleLength := by
  intro p e hen hended hpend hphase hpos
  have hstart : envAlong e 0 = e := envAlong_zero hphase hpos
  have hsteps : ∀ k, k * stepSize e.res3 < cycleLength p e →
      iter k (envClock p) e = envAlong e (k * stepSize e.res3) := by
    intro k hk
    rw [← iter_envClock_envAlong hen hended hpend hk, hstart]
  have hcycle := iter_envClock_cycle hen hended hpend (cycleLength_div_mul p e)
  rw [hstart] at hcycle
  refine ⟨cycleLength p e / stepSize e.res3, rfl, fun k hk => ?_, by rw [hcycle], by rw [hcycle], by rw [hcycle],
    by rw [hcycle], fun hloop k hk => ?_, fun hp hw hres k hk => ?_⟩
  · have hlt : k * stepSize e.res3 < cycleLength p e := by
      rw [← cycleLength_div_mul p e]
      exact Nat.mul_lt_mul_of_pos_right hk (stepSize_pos e.res3)
    rw [hsteps k hlt, envAlong_phase_val e (hlt.trans_le (cycleLength_le p e)), envAlong_pos_toNat]
    exact ⟨hended, rfl, Nat.div_add_mod _ 16⟩
  · have hstop : (iter k (envClock p) e).ended = true := by
      obtain ⟨j, rfl⟩ := Nat.exists_eq_add_of_le hk
      rw [iter_add, hcycle, iter_fixed (envClock_of_stopped p _ (.inr (by rw [hloop]; rfl))), hloop]
      rfl
    exact ⟨hstop, env_levels_of_stopped p (.inr hstop)⟩
  · have hone : stepSize e.res3 = 1 := by rw [hres]; rfl
    have hk16 : k < 16 := Nat.lt_succ_of_le hk
    have hlt : k * stepSize e.res3 < cycleLength p e := by
      rw [hone, Nat.mul_one]
      exact hk16.trans_le (sixteen_le_cycleLength p e)
    have hphase0 : (envAlong e k).phase = 0 := by rw [envAlong, Nat.div_eq_of_lt hk16]; rfl
    rw [hsteps k hlt, hone, Nat.mul_one, envLeft_of_running p (e := envAlong e k) hen hended, hphase0]
    change contourLevel (romEnv p e.waveform) e.res3 0 (BitVec.ofNat 4 k) = 15 - k
    rw [hw, hres]
    exact contourLevel_default_decay hp hk16

end Sys2Proof.Machine
end

section
/-! PROOFS. The end state of CLEAR (45_device_pipeline.md R255, 70_reset_and_hazards.md R301): what a register write does
to one part, then what the writes of CLEAR, in their order, make of the part. -/

namespace Sys2Proof.Machine

/-! ### A register write, part by part -/

/-- What a write of the byte d to register l does to oscillator k. -/
def oscRegWrite (rom : BitVec 3 → Byte → Nat) (k : Chan) (l : BitVec 5) (d : Byte) (o : Osc) : Osc :=
  if l.toNat = 8 + k.val then oscSetOffset rom d o
  else if l.toNat = 16 + k.val / 2 then
    oscSetOctave rom (if k.val % 2 = 0 then lowOctave d else highOctave d) o
  else if l.toNat = 28 then oscSync rom (bitOf d 1) o
  else o

/-- What a write of the byte d to register l does to noise generator j. -/
def noiseRegWrite (j : Gen) (l : BitVec 5) (d : Byte) (n : Noise) : Noise :=
  if l.toNat = 22 then setSource (if j = 0 then lowMode d else highMode d) n
  else if l.toNat = 28 then noiseSync (bitOf d 1) n
  else n

/-- What a write of the byte d to register l does to envelope generator j. -/
def envRegWrite (j : Gen) (l : BitVec 5) (d : Byte) (e : Env) : Env :=
  if l.toNat = 24 + j.val then envSetControl d e else e

/-- What a write of the byte d to register l does to amplifier k. -/
def ampRegWrite (k : Chan) (l : BitVec 5) (d : Byte) (a : Amp) : Amp :=
  if l.toNat = k.val then { a with volL := lowNibble d, volR := highNibble d }
  else if l.toNat = 20 then setToneMixer ((channelBits d).getLsbD k.val) a
  else if l.toNat = 21 then setNoiseMixer ((channelBits d).getLsbD k.val) a
  else if l.toNat = 28 then ampSync (bitOf d 1) (ampMute (!bitOf d 0) a)
  else a

section
variable (l : BitVec 5) (d : Byte) (s : State)

theorem regWrite_oscAt (k : Chan) : (s.regWrite l d).oscAt k = oscRegWrite s.rom k l d (s.oscAt k) := by
  revert l
  refine reg_cases fun n => ?_
  fin_cases n <;> fin_cases k <;> rfl

theorem regWrite_noiseAt (j : Gen) : (s.regWrite l d).noiseAt j = noiseRegWrite j l d (s.noiseAt j) := by
  revert l
  refine reg_cases fun n => ?_
  fin_cases n <;> fin_cases j <;> rfl

theorem regWrite_envAt (j : Gen) : (s.regWrite l d).envAt j = envRegWrite j l d (s.envAt j) := by
  revert l
  refine reg_cases fun n => ?_
  fin_cases n <;> fin_cases j <;> rfl

theorem regWrite_ampAt (k : Chan) : (s.regWrite l d).ampAt k = ampRegWrite k l d (s.ampAt k) := by
  revert l
  refine reg_cases fun n => ?_
  fin_cases n <;> fin_cases k <;> rfl

end

theorem regWrite_gsync (l : BitVec 5) (d : Byte) (s : State) :
    (s.regWrite l d).gsync = if l = 28 then bitOf d 1 else s.gsync := by
  revert l
  refine reg_cases fun n => ?_
  fin_cases n <;> rfl

@[simp] theorem addressWrite_gsync (reg : Byte) (s : State) : (s.addressWrite reg).gsync = s.gsync := by
  obtain ⟨-, -, -, -, -, -, hgsync, -⟩ := addressWrite_spec reg s
  exact hgsync

/-! ### A list of writes, part by part -/

/-- A part that each write of a byte to an address replaces, in a way that may read what no write changes. -/
theorem writeAll_part {α γ : Type} {part : State → α} {c : State → γ} {w : γ → Byte → Byte → α → α}
    (hc : ∀ a d u, c (State.writeAddressData a d u) = c u)
    (hw : ∀ a d u, part (State.writeAddressData a d u) = w (c u) a d (part u)) (l : List (Byte × Byte)) (s : State) :
    part (s.writeAll l) = l.foldl (fun x q => w (c s) q.1 q.2 x) (part s) := by
  induction l generalizing s with
  | nil => rfl
  | cons q l ih =>
    have hrest := ih (s.writeAddressData q.1 q.2)
    rw [hc, hw] at hrest
    exact hrest

theorem sameStream_trans {s t u : State} (h : sameStream s t) (k : sameStream t u) : sameStream s u := by
  obtain ⟨hcfg, hparams, hout, hpending⟩ := h
  obtain ⟨hcfg', hparams', hout', hpending'⟩ := k
  exact ⟨hcfg'.trans hcfg, hparams'.trans hparams, hout'.trans hout, hpending'.trans hpending⟩

theorem sameStream_writeAddressData (a d : Byte) (s : State) : sameStream s (s.writeAddressData a d) := by
  obtain ⟨-, -, -, hstream⟩ := regWrite_frame (regOfByte a) d (s.addressWrite a)
  exact sameStream_trans (sameStream_addressWrite a s) hstream

section
variable (s : State) (l : List (Byte × Byte))

theorem writeAll_oscAt (k : Chan) : (s.writeAll l).oscAt k =
    l.foldl (fun o q => oscRegWrite s.rom k (regOfByte q.1) q.2 o) (s.oscAt k) := by
  refine writeAll_part (part := (State.oscAt · k)) (c := State.rom)
    (w := fun rom a d o => oscRegWrite rom k (regOfByte a) d o)
    (fun a d u => rom_of_sameStream (sameStream_writeAddressData a d u)) (fun a d u => ?_) l s
  obtain ⟨-, -, hosc, -⟩ := addressWrite_spec a u
  rw [State.writeAddressData, regWrite_oscAt, rom_of_sameStream (sameStream_addressWrite a u), State.oscAt, hosc]

theorem writeAll_noiseAt (j : Gen) : (s.writeAll l).noiseAt j =
    l.foldl (fun n q => noiseRegWrite j (regOfByte q.1) q.2 n) (s.noiseAt j) := by
  refine writeAll_part (part := (State.noiseAt · j)) (c := fun _ => ())
    (w := fun _ a d n => noiseRegWrite j (regOfByte a) d n) (fun _ _ _ => rfl) (fun a d u => ?_) l s
  obtain ⟨-, -, -, hnoise, -⟩ := addressWrite_spec a u
  rw [State.writeAddressData, regWrite_noiseAt, State.noiseAt, hnoise]

theorem writeAll_ampAt (k : Chan) : (s.writeAll l).ampAt k =
    l.foldl (fun a q => ampRegWrite k (regOfByte q.1) q.2 a) (s.ampAt k) := by
  refine writeAll_part (part := (State.ampAt · k)) (c := fun _ => ())
    (w := fun _ a d x => ampRegWrite k (regOfByte a) d x) (fun _ _ _ => rfl) (fun a d u => ?_) l s
  obtain ⟨-, -, -, -, hamp, -⟩ := addressWrite_spec a u
  rw [State.writeAddressData, regWrite_ampAt, State.ampAt, hamp]

/-- Each write clocks an envelope generator's external clock first, at its own address. -/
theorem writeAll_envAt (j : Gen) : (s.writeAll l).envAt j =
    l.foldl (fun e q => envRegWrite j (regOfByte q.1) q.2
      (if q.1.toNat % 32 = 24 + j.val then externalClock s.params e else e)) (s.envAt j) := by
  refine writeAll_part (part := (State.envAt · j)) (c := State.params) (w := fun p a d e =>
    envRegWrite j (regOfByte a) d (if a.toNat % 32 = 24 + j.val then externalClock p e else e))
    (fun a d u => ?_) (fun a d u => ?_) l s
  · obtain ⟨-, hparams, -⟩ := sameStream_writeAddressData a d u
    exact hparams
  · rw [State.writeAddressData, regWrite_envAt, addressWrite_envAt]

end

/-! ### The parts after CLEAR -/

section
variable (s : State)

/-- Synced by the first write, an oscillator takes its offset and its octave at once, and is released by the last. -/
theorem clearAll_oscAt (k : Chan) : s.clearAll.oscAt k =
    { oscPowerOn s.params s.cfg.clockHz with level := (s.oscAt k).level } := by
  obtain ⟨-, -, hosc, -⟩ := addressWrite_spec 0 (s.writeAll clearWrites)
  rw [clearAll_eq_writeAll, State.oscAt, hosc, ← State.oscAt, writeAll_oscAt]
  calc clearWrites.foldl (fun o q => oscRegWrite s.rom k (regOfByte q.1) q.2 o) (s.oscAt k)
    _ = oscSync s.rom false (oscSetOctave s.rom 0 (oscSetOffset s.rom 0 (oscSync s.rom true (s.oscAt k)))) := by
      fin_cases k <;> rfl
    _ = _ := rfl

theorem clearAll_noiseAt (j : Gen) : s.clearAll.noiseAt j =
    { reg := (s.noiseAt j).reg, counter := 0, mode := 0, sync := false } := by
  obtain ⟨-, -, -, hnoise, -⟩ := addressWrite_spec 0 (s.writeAll clearWrites)
  rw [clearAll_eq_writeAll, State.noiseAt, hnoise, ← State.noiseAt, writeAll_noiseAt]
  calc clearWrites.foldl (fun n q => noiseRegWrite j (regOfByte q.1) q.2 n) (s.noiseAt j)
    _ = noiseSync false (setSource 0 (noiseSync true (s.noiseAt j))) := by fin_cases j <;> rfl
    _ = _ := rfl

theorem clearAll_ampAt (k : Chan) : s.clearAll.ampAt k = { ampPowerOn with inter := (s.ampAt k).inter } := by
  obtain ⟨-, -, -, -, hamp, -⟩ := addressWrite_spec 0 (s.writeAll clearWrites)
  rw [clearAll_eq_writeAll, State.ampAt, hamp, ← State.ampAt, writeAll_ampAt]
  fin_cases k <;> rfl

/-- Whatever the address write clocks, a control byte of 0 then disables the generator. -/
theorem clearAll_envAt (j : Gen) : s.clearAll.envAt j = { envPowerOn with pendByte := (s.envAt j).pendByte } := by
  have hzero : (0 : Byte).toNat % 32 = 0 := rfl
  rw [clearAll_eq_writeAll, addressWrite_envAt, if_neg (by omega), writeAll_envAt]
  calc _ = envSetControl 0 (externalClock s.params (s.envAt j)) := by fin_cases j <;> rfl
    _ = { envPowerOn with pendByte := (externalClock s.params (s.envAt j)).pendByte } := rfl
    _ = _ := by
      rw [externalClock_keeps (P := fun e => e.pendByte = (s.envAt j).pendByte) s.params
        (fun e he => (envClock_keeps s.params e).2.trans he) _ rfl]

theorem clearAll_gsync : s.clearAll.gsync = false := by
  simp only [State.clearAll, State.writeAddressData, addressWrite_gsync, regWrite_gsync]
  rfl

theorem clearAll_frame : s.clearAll.zL = s.zL ∧ s.clearAll.zR = s.zR ∧ sameStream s s.clearAll := by
  refine clearAll_keeps (P := fun u => u.zL = s.zL ∧ u.zR = s.zR ∧ sameStream s u) (fun reg u hu => ?_)
    (fun a d u hu => ?_) ⟨rfl, rfl, rfl, rfl, rfl, rfl⟩
  · obtain ⟨hL, hR, hkept⟩ := hu
    obtain ⟨-, -, -, -, -, -, -, hzL, hzR, hstream⟩ := addressWrite_spec reg u
    exact ⟨hzL.trans hL, hzR.trans hR, sameStream_trans hkept hstream⟩
  · obtain ⟨hL, hR, hkept⟩ := hu
    obtain ⟨-, hzL, hzR, hstream⟩ := regWrite_frame a d u
    exact ⟨hzL.trans hL, hzR.trans hR, sameStream_trans hkept hstream⟩

end

/-- Settles O48: part by part, and every amplifier is left muted. -/
theorem clearEndState : Obligations.ClearEndState := by
  intro s
  obtain ⟨hzL, hzR, hstream⟩ := clearAll_frame s
  refine ⟨s.clearAll, rfl, clearAll_oscAt s, clearAll_noiseAt s, clearAll_envAt s, clearAll_ampAt s, clearAll_latch s,
    clearAll_enable s, clearAll_gsync s, hzL, hzR, hstream, fun i => ampOut_of_silent i _ (.inl ?_)⟩
  rw [← State.ampAt, clearAll_ampAt]
  rfl

end Sys2Proof.Machine
end
